-- ==== Sys2Proof/Word.lean ====
section
/-!
DEFINITION. The plain values of the block and the words it is spoken to with: channel bytes, pixels, pulses, fault
codes, and the three encodings of 30_encoding.md (command vector, operation ids, wire symbols).
-/

namespace Sys2Proof

/-- A `u8`: a colour channel or a wire byte (00 R9). -/
abbrev Byte := BitVec 8

/-- A Pixel: three 8-bit channels and nothing else (10 R22). -/
structure Pixel where
  r : Byte
  g : Byte
  b : Byte
deriving DecidableEq, Repr

/-- The pixel (0,0,0), all channels off: what CLEAR and reset leave (42 R173, 10 R37). -/
def Pixel.off : Pixel := ⟨0, 0, 0⟩

/-- A pulse `(level, dur)`: the line at `level` for `dur` protocol ticks (00 R11). -/
structure Pulse where
  level : Bool
  dur : Nat
deriving DecidableEq, Repr

/-- The `u2` register `fault_code` by its names (10 R31); its bits are `FaultCode.bits` (30 R107). -/
inductive FaultCode where
  | none
  | initFault
  | sensorFault
  | txFault
deriving DecidableEq, Repr

/-- 00 NONE, 01 INIT_FAULT, 10 SENSOR_FAULT, 11 TX_FAULT (30 R107). -/
def FaultCode.bits : FaultCode → BitVec 2
  | .none => 0b00
  | .initFault => 0b01
  | .sensorFault => 0b10
  | .txFault => 0b11

/-- One code word of the block's three encodings (30_encoding.md, head). A pattern of bits is read as one number whose
least significant bit is the rightmost character of the pattern. -/
inductive CodeWord where
  /-- The command vector `{rst, tick_req, sample_fault}` of one clock edge (30 R98). -/
  | command (cmd : BitVec 3)
  /-- An operation id and its fixed-width operands, `len` bits with the id leftmost (30 R100). -/
  | operation (len val : Nat)
  /-- `len` data bits of the wire, leftmost sent first (30 R92, R93). -/
  | data (len val : Nat)
  /-- The line held low for the latch gap: not a data bit (30 R94). -/
  | lineLow
deriving DecidableEq, Repr

/-- The input pins that are no command (30 R98, 44 R231), as they stand while one item of the script is carried out.
`txFaultAt` serves the one-step TRANSMIT of mode TX only: `TXFAULT @n` of 30 R105, `n` the cycle of the tick whose ending edge
sees `tx_fault`, cycle 1 being the TX_LOAD cycle. -/
structure Pins where
  initFault : Bool := false
  txFault : Bool := false
  txFaultAt : Option Nat := none
deriving DecidableEq, Repr

/-- One item the host presents: a code word, the operand ports beside it (the lines of `sample` and `now_ms` read as
numbers, and the list operands of ENCODE, DECODE and TRANSMIT, which no pattern holds: 30 R100), and the pins. -/
structure Stimulus where
  word : CodeWord
  sample : Nat := 0
  nowMs : Nat := 0
  bytes : List Byte := []
  train : List Pulse := []
  pins : Pins := {}
deriving DecidableEq, Repr

end Sys2Proof
end

