-- ==== Sys2Proof/Config.lean ====
section
/-!
DEFINITION. The elaboration-time parameters of 00_scope.md R7, all of them named arguments with the defaults R7 gives
(D29). A machine state carries them as read-only data (`State.params`), so that what is said of all states is said of all
parameters; `Config.params` is the set that `State.reset` is built with.
-/

namespace Sys2Proof

/-- `RETRIGGER`: what a trigger does while BLINKING (43 R197). -/
inductive Retrigger where
  | restart
  | ignore
deriving DecidableEq, Repr

/-- `SENSOR_FAULT_POLICY`: what a sensor read fault does (60 R256). -/
inductive SensorFaultPolicy where
  | fatal
  | tolerant
deriving DecidableEq, Repr

/-- The parameters of 00 R7, under their names there. `redPhase` is `RED_PHASE`, one of 0 and 1; `tickNs` is
`TICK_NS`, on which no rule depends. The four durations have no default (N1). -/
structure Params where
  ledCount : Nat := 14
  threshold : Nat := 200
  blinkDuration : Nat := 10000
  halfPeriod : Nat := 500
  colorOn : Pixel := ⟨255, 0, 0⟩
  colorOff : Pixel := ⟨0, 0, 0⟩
  tickNs : Nat := 100
  t0h : Nat
  t0l : Nat
  t1h : Nat
  t1l : Nat
  tLatch : Nat := 500
  sampleW : Nat := 16
  timeW : Nat := 32
  durW : Nat := 16
  idxW : Nat := 8
  retrigger : Retrigger := .restart
  redPhase : Fin 2 := 0
  sensorFaultPolicy : SensorFaultPolicy := .fatal
deriving DecidableEq, Repr

/-- `FRAME_BYTES` = 3 * LED_COUNT (00 R7). -/
def Params.frameBytes (p : Params) : Nat := 3 * p.ledCount

/-- `FRAME_BITS` = 8 * FRAME_BYTES (00 R7). -/
def Params.frameBits (p : Params) : Nat := 8 * p.frameBytes

/-- The last wire byte of a frame, 41 where LED_COUNT is 14 (20 R62). -/
def Params.lastByte (p : Params) : Nat := p.frameBytes - 1

/-- A duration is a natural number of protocol ticks `>= 1` that the down-counter can hold (00 R7, D6, D25). -/
abbrev Params.DurationOk (p : Params) (d : Nat) : Prop := 1 ≤ d ∧ d < 2 ^ p.durW

/-- The constraints of 00 R7 on the parameters, and a strip of at least one pixel (DESIGN CHOICE, assumption log 2).
-/
abbrev Params.Wf (p : Params) : Prop :=
  (p.DurationOk p.t0h ∧ p.DurationOk p.t0l ∧ p.DurationOk p.t1h ∧ p.DurationOk p.t1l) ∧
  (p.t0h, p.t0l) ≠ (p.t1h, p.t1l) ∧
  (500 ≤ p.tLatch ∧ p.tLatch < 2 ^ p.durW) ∧
  p.threshold < 2 ^ p.sampleW ∧ p.blinkDuration < 2 ^ p.timeW ∧ 1 ≤ p.halfPeriod ∧
  1 ≤ p.ledCount ∧ p.ledCount ≤ 2 ^ p.idxW

/-- What an implementation fixes for `T0H`: the spec gives no value and no default (00 R7, D6, N1). Nothing in Lean
can evaluate it. The same holds of the three below. DESIGN CHOICE (assumption log 3). -/
opaque Config.rawT0h : Nat

/-- As `Config.rawT0h`, for `T0L`. -/
opaque Config.rawT0l : Nat

/-- As `Config.rawT0h`, for `T1H`. -/
opaque Config.rawT1h : Nat

/-- As `Config.rawT0h`, for `T1L`. -/
opaque Config.rawT1l : Nat

/-- A duration made legal for a 16-bit down-counter: its values are exactly the naturals in [1, 2^16). -/
def Config.duration (raw : Nat) : Nat := 1 + raw % (2 ^ 16 - 1)

/-- A low duration for the one symbol, kept off `t0l` when the high durations agree, so that the two symbols differ as
00 R7 asks. Every legal profile is still a possible one. -/
def Config.distinctLow (t0h t0l t1h t1l : Nat) : Nat :=
  if (t1h, t1l) = (t0h, t0l) then (if t1l = 1 then 2 else 1) else t1l

/-- The parameters of the block `State.reset` describes: the value or default R7 gives for every parameter that has
one, and four unknown legal durations. DESIGN CHOICE (assumption log 2, 3). -/
def Config.params : Params where
  t0h := Config.duration Config.rawT0h
  t0l := Config.duration Config.rawT0l
  t1h := Config.duration Config.rawT1h
  t1l := Config.distinctLow (Config.duration Config.rawT0h) (Config.duration Config.rawT0l)
    (Config.duration Config.rawT1h) (Config.duration Config.rawT1l)

theorem Config.duration_ok (raw : Nat) : 1 ≤ Config.duration raw ∧ Config.duration raw < 2 ^ 16 := by
  simp only [Config.duration]
  omega

theorem Config.distinctLow_ok {t0h t0l t1h t1l : Nat} (h : 1 ≤ t1l ∧ t1l < 2 ^ 16) :
    1 ≤ Config.distinctLow t0h t0l t1h t1l ∧ Config.distinctLow t0h t0l t1h t1l < 2 ^ 16 := by
  simp only [Config.distinctLow]
  repeat' split
  all_goals omega

theorem Config.distinctLow_ne (t0h t0l t1h t1l : Nat) :
    (t0h, t0l) ≠ (t1h, Config.distinctLow t0h t0l t1h t1l) := by
  simp only [Config.distinctLow, ne_eq, Prod.mk.injEq]
  repeat' split
  all_goals omega

/-- The block of `State.reset` meets every constraint of 00 R7, whatever its four durations are. -/
theorem Config.params_wf : Config.params.Wf := by
  refine ⟨⟨Config.duration_ok _, Config.duration_ok _, Config.duration_ok _,
      Config.distinctLow_ok (Config.duration_ok _)⟩,
    Config.distinctLow_ne _ _ _ _, ?_⟩
  simp only [Config.params]
  omega

end Sys2Proof
end

