-- ==== Sys2Proof/Syntax.lean ====
section
/-!
DEFINITION. The syntax: `Instr`, one constructor for every row of spec/opcode_table.json, and the reasons for which the
decoder turns a word away.
-/

namespace Sys2Proof

/-- The rows of the opcode table: the four commands (30 R99), the operations of 30 R100 with their operands, the
reserved row of 30 R102, and the wire symbols (30 R92 to R94). `sample` and `cur` are `s SAMPLE_W`, `now` is
`u TIME_W` (43 R191), held as the integers they stand for (00 R9); `index` is `u IDX_W` (30 R97). -/
inductive Instr where
  | reset
  | nop
  | tick (sample : Int) (now : Nat)
  | tickSfault
  | encodeBit (v : Bool)
  | encodeByte (d : Byte)
  | encode (bs : List Byte)
  | decode (ps : List Pulse)
  | transmit (snap : List Byte)
  | setPixel (index : Nat) (r g b : Byte)
  | clear
  | fill (r g b : Byte)
  | snapshot
  | ctrlUpdate (cur : Int) (now : Nat)
  | tickEnd
  | halt (code : FaultCode)
  | unassigned (x : BitVec 2)
  | sym0
  | sym1
  | latch
  | pixelWord (g r b : Byte)
deriving DecidableEq, Repr

/-- Why a word is no instruction. -/
inductive DecodeError where
  /-- No operation pattern has this length with this id (30 R100). -/
  | operation (len val : Nat)
  /-- No wire row has this many data bits with this value (30 R92, R93). -/
  | data (len val : Nat)
deriving DecidableEq, Repr

end Sys2Proof
end

