-- ==== Sys2Proof/WellFormed.lean ====
section
/-!
DEFINITION. Which instructions are well formed: every operand is a value its port or operand can hold, and the
operation is one the spec gives a meaning.
-/

namespace Sys2Proof

/-- `x` is a value of `s SAMPLE_W`: it lies in [-2^(SAMPLE_W-1), 2^(SAMPLE_W-1)) (00 R9). -/
abbrev Params.SampleOk (p : Params) (x : Int) : Prop :=
  -((2 ^ p.sampleW : Nat) : Int) ≤ 2 * x ∧ 2 * x < ((2 ^ p.sampleW : Nat) : Int)

/-- `t` is a value of `u TIME_W`: it lies in [0, 2^TIME_W) (00 R9). -/
abbrev Params.TimeOk (p : Params) (t : Nat) : Prop := t < 2 ^ p.timeW

/-- The checks: a sample and a time fit their ports (44 R231); a pulse lasts at least one protocol tick (00 R10); a
snapshot has FRAME_BYTES bytes (41 R141, 93 U3); a pixel index fits its operand (30 R97); the code NONE is never
raised (60 R251, R254); an unassigned id means nothing (30 R102). -/
def wellFormed (p : Params) : Instr → Bool
  | .reset => true
  | .nop => true
  | .tick sample now => decide (p.SampleOk sample ∧ p.TimeOk now)
  | .tickSfault => true
  | .encodeBit _ => true
  | .encodeByte _ => true
  | .encode _ => true
  | .decode ps => ps.all fun q => decide (1 ≤ q.dur)
  | .transmit snap => decide (snap.length = p.frameBytes)
  | .setPixel index _ _ _ => decide (index < 2 ^ p.idxW)
  | .clear => true
  | .fill _ _ _ => true
  | .snapshot => true
  | .ctrlUpdate cur now => decide (p.SampleOk cur ∧ p.TimeOk now)
  | .tickEnd => true
  | .halt code => decide (code ≠ .none)
  | .unassigned _ => false
  | .sym0 => true
  | .sym1 => true
  | .latch => true
  | .pixelWord _ _ _ => true

end Sys2Proof
end

