-- ==== Sys2Proof/Decode.lean ====
section
/-!
DEFINITION. The decoder, total on every word and rejecting by name, and the encoder, both written from
30_encoding.md; the two's-complement helpers of the `sample` port; and the reading of an opcode-table word.
-/

namespace Sys2Proof

/-- `int(v)` of the low `w` lines of a port read as a signed two's-complement number (00 R9). -/
def signedOf (w n : Nat) : Int :=
  if 2 * (n % 2 ^ w) < 2 ^ w then ((n % 2 ^ w : Nat) : Int) else ((n % 2 ^ w : Nat) : Int) - ((2 ^ w : Nat) : Int)

/-- The `w` lines of a port that carry the signed number `x`, read as an unsigned number. -/
def unsignedOf (w : Nat) (x : Int) : Nat := (x % ((2 ^ w : Nat) : Int)).toNat

/-- The sample on the `sample` port, `s SAMPLE_W` (44 R231). -/
def sampleOperand (p : Params) (x : Stimulus) : Int := signedOf p.sampleW x.sample

/-- The time on the `now_ms` port, `u TIME_W` (44 R231). -/
def timeOperand (p : Params) (x : Stimulus) : Nat := x.nowMs % 2 ^ p.timeW

/-- The two bits of a fault code by name (30 R107). -/
def faultCodeOf (n : Nat) : FaultCode :=
  if n = 0 then .none else if n = 1 then .initFault else if n = 2 then .sensorFault else .txFault

/-- Command decode: the rows of 30 R99 by their match and mask. All eight values are covered. -/
def decodeCommand (p : Params) (cmd : BitVec 3) (x : Stimulus) : Instr :=
  if cmd &&& 0b100 = 0b100 then .reset
  else if cmd &&& 0b110 = 0b000 then .nop
  else if cmd &&& 0b111 = 0b010 then .tick (sampleOperand p x) (timeOperand p x)
  else .tickSfault

/-- An operation word: the id is its leftmost four bits, the operands follow (30 R100). A word of another length
than its id's pattern, or of an id above 1111, is rejected. -/
def decodeOperation (p : Params) (len val : Nat) (x : Stimulus) : Except DecodeError Instr :=
  let bare (i : Instr) : Except DecodeError Instr := if len = 4 then .ok i else .error (.operation len val)
  if len < 4 then .error (.operation len val)
  else
    match val / 2 ^ (len - 4) with
    | 0b0000 => if len = 5 then .ok (.encodeBit (val % 2 = 1)) else .error (.operation len val)
    | 0b0001 => if len = 12 then .ok (.encodeByte (BitVec.ofNat 8 val)) else .error (.operation len val)
    | 0b0010 => bare (.encode x.bytes)
    | 0b0011 => bare (.decode x.train)
    | 0b0100 => bare (.transmit x.bytes)
    | 0b0101 =>
      if len = 28 + p.idxW then
        .ok (.setPixel (val / 2 ^ 24 % 2 ^ p.idxW) (BitVec.ofNat 8 (val / 2 ^ 16)) (BitVec.ofNat 8 (val / 2 ^ 8))
          (BitVec.ofNat 8 val))
      else .error (.operation len val)
    | 0b0110 => bare .clear
    | 0b0111 =>
      if len = 28 then
        .ok (.fill (BitVec.ofNat 8 (val / 2 ^ 16)) (BitVec.ofNat 8 (val / 2 ^ 8)) (BitVec.ofNat 8 val))
      else .error (.operation len val)
    | 0b1000 => bare .snapshot
    | 0b1001 => bare (.ctrlUpdate (sampleOperand p x) (timeOperand p x))
    | 0b1010 => bare .tickEnd
    | 0b1011 => if len = 6 then .ok (.halt (faultCodeOf (val % 4))) else .error (.operation len val)
    | 0b1100 => bare (.unassigned 0b00)
    | 0b1101 => bare (.unassigned 0b01)
    | 0b1110 => bare (.unassigned 0b10)
    | 0b1111 => bare (.unassigned 0b11)
    | _ => .error (.operation len val)

/-- Data bits of the wire: one bit is a symbol, 24 bits a pixel word, green leftmost (30 R92, R93). -/
def decodeData (len val : Nat) : Except DecodeError Instr :=
  match len with
  | 1 => if val = 0 then .ok .sym0 else if val = 1 then .ok .sym1 else .error (.data 1 val)
  | 24 =>
    if val < 2 ^ 24 then
      .ok (.pixelWord (BitVec.ofNat 8 (val / 2 ^ 16)) (BitVec.ofNat 8 (val / 2 ^ 8)) (BitVec.ofNat 8 val))
    else .error (.data 24 val)
  | n => .error (.data n val)

/-- The decoder: what the host presents, as an instruction or a named rejection. -/
def decode (p : Params) (x : Stimulus) : Except DecodeError Instr :=
  match x.word with
  | .command cmd => .ok (decodeCommand p cmd x)
  | .operation len val => decodeOperation p len val x
  | .data len val => decodeData len val
  | .lineLow => .ok .latch

/-- The encoder, from the same tables (30 R92 to R94, R98 to R100); a don't-care bit is 0 and the pins are low. -/
def encode (p : Params) : Instr → Stimulus
  | .reset => { word := .command 0b100 }
  | .nop => { word := .command 0b000 }
  | .tick sample now => { word := .command 0b010, sample := unsignedOf p.sampleW sample, nowMs := now }
  | .tickSfault => { word := .command 0b011 }
  | .encodeBit v => { word := .operation 5 v.toNat }
  | .encodeByte d => { word := .operation 12 (0b0001 * 2 ^ 8 + d.toNat) }
  | .encode bs => { word := .operation 4 0b0010, bytes := bs }
  | .decode ps => { word := .operation 4 0b0011, train := ps }
  | .transmit snap => { word := .operation 4 0b0100, bytes := snap }
  | .setPixel i r g b =>
    { word := .operation (28 + p.idxW)
        (0b0101 * 2 ^ (24 + p.idxW) + i * 2 ^ 24 + r.toNat * 2 ^ 16 + g.toNat * 2 ^ 8 + b.toNat) }
  | .clear => { word := .operation 4 0b0110 }
  | .fill r g b => { word := .operation 28 (0b0111 * 2 ^ 24 + r.toNat * 2 ^ 16 + g.toNat * 2 ^ 8 + b.toNat) }
  | .snapshot => { word := .operation 4 0b1000 }
  | .ctrlUpdate cur now => { word := .operation 4 0b1001, sample := unsignedOf p.sampleW cur, nowMs := now }
  | .tickEnd => { word := .operation 4 0b1010 }
  | .halt code => { word := .operation 6 (0b1011 * 2 ^ 2 + code.bits.toNat) }
  | .unassigned x => { word := .operation 4 (0b11 * 2 ^ 2 + x.toNat) }
  | .sym0 => { word := .data 1 0 }
  | .sym1 => { word := .data 1 1 }
  | .latch => { word := .lineLow }
  | .pixelWord g r b => { word := .data 24 (g.toNat * 2 ^ 16 + r.toNat * 2 ^ 8 + b.toNat) }

/-- The code word an opcode-table word of `nbits` bits (in whole bytes) stands for. The table's three encodings share
values, so the command vector, the only one a signal of the block carries (30 R98, R100), comes first. DESIGN CHOICE
(assumption log 6). -/
def tableCodeWord (nbits w : Nat) : CodeWord :=
  if nbits ≤ 8 then
    if w < 8 then .command (BitVec.ofNat 3 w) else if w < 16 then .operation 4 w else .operation 6 w
  else if nbits ≤ 16 then .operation 12 w
  else if nbits ≤ 24 then .data 24 w
  else if nbits ≤ 32 then .operation 28 w
  else .operation 36 w

/-- An opcode-table word as an item of the host's script: every operand outside the pattern is zero, a snapshot being
FRAME_BYTES bytes of zero. -/
def tableStimulus (p : Params) (nbits w : Nat) : Stimulus :=
  { word := tableCodeWord nbits w, bytes := List.replicate p.frameBytes 0 }

/-- The instruction the decoder reads from an opcode-table word whose bits are `w`, numbered as the table numbers
them. -/
def decodeTableWord (nbits w : Nat) : Option Instr :=
  (decode Config.params (tableStimulus Config.params nbits w)).toOption

end Sys2Proof
end

