-- ==== Sys2Proof/Machine/State.lean ====
section
/-!
DEFINITION. The state of the machine as plain data: the fourteen elements of 10_state.md R20, and beside them the
parameters, the host's side and the observation of the wire, which are the model's own (INVENTORY.md, State).
-/

namespace Sys2Proof.Machine

/-- The Frame Buffer: the pixels in index order, index = position along the strip (10 R21). That there are exactly
LED_COUNT of them is part of the invariant (`FbOk`), since LED_COUNT is a parameter. -/
abbrev FrameBuffer := List Pixel

/-- The Blink Controller's state (10 R23). -/
inductive Blink where
  | idle
  | blinking
deriving DecidableEq, Repr

/-- The top-level condition of the block (10 R30). -/
inductive Mode where
  | init
  | wait
  | tx
  | halted
deriving DecidableEq, Repr

/-- What the Transmitter is doing (10 R33): TX_IDLE, TX_LOAD, TX_HIGH, TX_LOW, TX_LATCH. -/
inductive Phase where
  | idle
  | load
  | high
  | low
  | latch
deriving DecidableEq, Repr

/-- The Transmitter's sequencer position (10 R33); `byte_idx` stays below FRAME_BYTES by the invariant. -/
structure Seq where
  phase : Phase
  byteIdx : Nat
  bitIdx : Fin 8
  cnt : Nat
deriving DecidableEq, Repr

/-- `(TX_IDLE, 0, 7, 0)`, where the sequencer rests (10 R33, 41 R150). -/
def Seq.rest : Seq := ⟨.idle, 0, 7, 0⟩

/-- What a value operation returned to its caller (30 R100): pulses, bytes, or DECODE's `fail`, which is a result and
no fault (40 R126). The model's own; DESIGN CHOICE (assumption log 5). -/
inductive OpResult where
  | none
  | pulses (ps : List Pulse)
  | bytes (bs : List Byte)
  | fail
deriving DecidableEq, Repr

/-- No fault stops this machine: the block's three fatal faults are next states in mode HALTED (60 R254, R258), so the
type has no constructor and nobody raises one. Safe: nothing is hidden behind a stop. -/
inductive Fault
deriving DecidableEq, Repr

/-- Why the machine has no step. Each is safe: the model says nothing where the spec gives no effect. -/
inductive Refusal where
  /-- Raised by an arm of `exec` that has no meaning yet. Safe. -/
  | notModelled (mnemonic : String)
  /-- Raised by `step` on a word that is no instruction (30 R100 to R102). Safe. -/
  | undecodable (why : DecodeError)
  /-- Raised by UNASSIGNED: operation ids 1100 to 1111 mean nothing (30 R102, 93 U17). Safe. -/
  | unassignedOperation
  /-- Raised by TRANSMIT on a list of another length than FRAME_BYTES (93 U3). Safe. -/
  | frameLength (length : Nat)
  /-- Raised by TRANSMIT in every mode but TX: `require mode = TX` (41 R141). Safe. -/
  | transmitOutsideTick
  /-- Raised by HALT with code 00, which is never raised (60 R251, R254). Safe. -/
  | haltWithoutCause
deriving DecidableEq, Repr

/-- The state. From `fb` to `sensorWarn` it is 10 R20, the complete state of the block; the rest is the model's own.
-/
structure State where
  /-- The elaboration-time parameters (00 R7): read-only, no rule writes them (10 R35). -/
  params : Params
  /-- The Frame Buffer (10 R21). -/
  fb : FrameBuffer
  /-- The Blink Controller's state (10 R23). -/
  blink : Blink
  /-- The time that opened the current window, valid only while BLINKING (10 R24). -/
  blinkStart : Nat
  /-- The last observed light sample (10 R25). -/
  prevSample : Int
  /-- Whether a first sample has been taken as baseline (10 R26). -/
  baselineValid : Bool
  /-- The sample of the tick in progress (10 R27). -/
  curSample : Int
  /-- The top-level condition (10 R30). -/
  mode : Mode
  /-- Why the block halted (10 R31). -/
  faultCode : FaultCode
  /-- The sequencer position (10 R33). -/
  seq : Seq
  /-- Strobe: a tick completed or was skipped at the last edge (10 R28). -/
  tickDone : Bool
  /-- Strobe: a tick was skipped for a sensor fault at the last edge (10 R28). -/
  sensorWarn : Bool
  /-- The pins that are no command, at the present edge (44 R231). -/
  pins : Pins
  /-- What the host will present, one item a step. -/
  script : List Stimulus
  /-- The wire trace of the current or latest transmission as runs, NEWEST first (00 R10, R11; 41 R147). -/
  wire : List Pulse
  /-- What the latest value operation returned. -/
  result : OpResult
deriving DecidableEq, Repr

/-- The machine right after reset (10 R37, 70 R290), before any host has presented anything. -/
def State.reset : State where
  params := Config.params
  fb := List.replicate Config.params.ledCount Pixel.off
  blink := .idle
  blinkStart := 0
  prevSample := 0
  baselineValid := false
  curSample := 0
  mode := .init
  faultCode := .none
  seq := Seq.rest
  tickDone := false
  sensorWarn := false
  pins := {}
  script := []
  wire := []
  result := .none

end Sys2Proof.Machine
end

