-- ==== Sys2Proof/Machine/Operands.lean ====
section
/-!
DEFINITION. The operand forms: the read primitive `SnapByte` and the snapshot (20_memory.md R64), the bit being
sent and the position after it (41_transmitter.md R149), and the durations a bit selects (30_encoding.md R93).
-/

namespace Sys2Proof.Machine

/-- A pixel's channel in wire order: 0 is green, 1 red, 2 blue (20 R62). -/
def channel (px : Pixel) (c : Nat) : Byte :=
  match c with
  | 0 => px.g
  | 1 => px.r
  | _ => px.b

/-- `SnapByte(k)` (20 R64). A byte of a pixel the buffer does not hold, which the invariant rules out, reads as 0
(assumption log 15). -/
def snapByte (fb : FrameBuffer) (k : Nat) : Byte :=
  match fb[k / 3]? with
  | some px => channel px (k % 3)
  | none => 0

/-- `SNAPSHOT()`: the FRAME_BYTES wire bytes in order (42 R176). -/
def snapshotOf (p : Params) (fb : FrameBuffer) : List Byte := (List.range p.frameBytes).map (snapByte fb)

/-- `CurBit(byte_idx, bit_idx) = SnapByte(byte_idx)[bit_idx]` (41 R149). -/
def curBit (fb : FrameBuffer) (byteIdx : Nat) (bitIdx : Fin 8) : Bool := (snapByte fb byteIdx).getLsbD bitIdx.val

/-- The successor of a wire position; the last one, (41, 0) where LED_COUNT is 14, has none (41 R149). -/
def successor (p : Params) (byteIdx : Nat) (bitIdx : Fin 8) : Option (Nat × Fin 8) :=
  if h : 0 < bitIdx.val then some (byteIdx, ⟨bitIdx.val - 1, by omega⟩)
  else if byteIdx + 1 < p.frameBytes then some (byteIdx + 1, 7)
  else none

/-- `TH(v)`: the high duration of a bit (41 R149). -/
def highTicks (p : Params) (v : Bool) : Nat := if v then p.t1h else p.t0h

/-- `TL(v)`: the low duration of a bit (41 R149). -/
def lowTicks (p : Params) (v : Bool) : Nat := if v then p.t1l else p.t0l

/-- The bits of a byte in the order in which they are sent: bit 7 first (20 R65). -/
def bitsOf (d : Byte) : List Bool :=
  [d.getLsbD 7, d.getLsbD 6, d.getLsbD 5, d.getLsbD 4, d.getLsbD 3, d.getLsbD 2, d.getLsbD 1, d.getLsbD 0]

/-- `{v7, v6, v5, v4, v3, v2, v1, v0}` as a byte (00 R9, 40 R126). -/
def byteOf (v7 v6 v5 v4 v3 v2 v1 v0 : Bool) : Byte :=
  BitVec.ofNat 8 (v7.toNat * 128 + v6.toNat * 64 + v5.toNat * 32 + v4.toNat * 16 + v3.toNat * 8 + v2.toNat * 4 +
    v1.toNat * 2 + v0.toNat)

end Sys2Proof.Machine
end

