-- ==== Sys2Proof/Machine/Ops.lean ====
section
/-!
DEFINITION. The operations every instruction is made of: taking an item of the host's script, writing the Frame Buffer,
emitting on the wire, the strobes, entering HALTED (`raise Fatal`) and leaving it (reset).
-/

namespace Sys2Proof.Machine

/-- `FbWrite(i, r, g, b)`: the bounds-checked pixel write; an index outside [0, LED_COUNT) is silently ignored
(00 R10, 42 R171, 20 R68). All three channels are written together (20 R70). -/
def fbWrite (p : Params) (fb : FrameBuffer) (index : Nat) (px : Pixel) : FrameBuffer :=
  if index < p.ledCount then fb.set index px else fb

/-- FILL: SET_PIXEL on every index from 0 to LED_COUNT - 1 (42 R174). -/
def fbFill (p : Params) (fb : FrameBuffer) (px : Pixel) : FrameBuffer :=
  (List.range p.ledCount).foldl (fun acc i => fbWrite p acc i px) fb

/-- CLEAR: every pixel to (0,0,0), that is FILL(0,0,0) (42 R173, 30 R106). -/
def fbClear (p : Params) (fb : FrameBuffer) : FrameBuffer := fbFill p fb Pixel.off

/-- `emit(level, dur)` on a wire trace kept newest first: a pulse of the same level as the last one is one longer run
on the wire (00 R10, R11; 41 R147). -/
def emit (wire : List Pulse) (q : Pulse) : List Pulse :=
  match wire with
  | [] => [q]
  | last :: older => if last.level = q.level then ⟨q.level, last.dur + q.dur⟩ :: older else q :: last :: older

/-- A pulse train emitted in order. -/
def emitAll (wire : List Pulse) (train : List Pulse) : List Pulse := train.foldl emit wire

/-- The trace of the wire put on record at a clock edge: the cycle that ends held `dout` for one protocol tick. The
TX_LOAD cycle adds nothing to the trace (41 R156). -/
def recordTick (s : State) : State :=
  if s.mode = .tx then
    match s.seq.phase with
    | .high => { s with wire := emit s.wire ⟨true, 1⟩ }
    | .low => { s with wire := emit s.wire ⟨false, 1⟩ }
    | .latch => { s with wire := emit s.wire ⟨false, 1⟩ }
    | .load => s
    | .idle => s
  else s

/-- Every edge that does not set a strobe clears it (10 R28). -/
def clearStrobes (s : State) : State := { s with tickDone := false, sensorWarn := false }

/-- `raise Fatal(code)`, the block's only trap entry: nothing is saved, and in HALTED nothing further can be raised
(60 R254, R259). -/
def raiseFatal (code : FaultCode) (s : State) : State :=
  if s.mode = .halted then s
  else { s with mode := .halted, faultCode := code, seq := Seq.rest, tickDone := false, sensorWarn := false }

/-- An operation or a wire symbol issued alone has its effect between ticks, in mode WAIT. In INIT, TX and HALTED it
is dropped whole, as a TICK is (44 R239): nothing writes the Frame Buffer or the Blink State while a transmission
runs (20 R76, R79; 70 R309), the line is the sequencer's alone (10 R34), and in HALTED the state is frozen (60
R258). DEDUCED (assumption log 11). -/
def betweenTicks (f : State → State) (s : State) : State := if s.mode = .wait then f s else s

/-- RESET, the only way out of HALTED: every element of 10 R20 to its reset value (70 R290, 60 R259). The parameters
are not state (70 R290), and the host's side and the observations are not the block's. -/
def resetBlock (s : State) : State :=
  { s with
    fb := List.replicate s.params.ledCount Pixel.off
    blink := .idle
    blinkStart := 0
    prevSample := 0
    baselineValid := false
    curSample := 0
    mode := .init
    faultCode := .none
    seq := Seq.rest
    tickDone := false
    sensorWarn := false }

/-- What the host presents when its script is empty: no command and every pin low. DESIGN CHOICE (assumption
log 1). -/
def idleStimulus : Stimulus := { word := .command 0b000 }

/-- Takes the next item of the script and puts its pins in place. -/
def fetch (s : State) : Stimulus × State :=
  match s.script with
  | [] => (idleStimulus, { s with pins := idleStimulus.pins })
  | x :: rest => (x, { s with script := rest, pins := x.pins })

/-- Puts an item in front of the host's script, where `fetch` takes it next. -/
def placeNext (x : Stimulus) (s : State) : State := { s with script := x :: s.script }

end Sys2Proof.Machine
end

