-- ==== Sys2Proof/Machine/Flags.lean ====
section
/-!
DEFINITION. The flag computations of the Blink Controller (43_blink_controller.md R193 to R200) and the outputs of the
block as functions of its state (10_state.md R34, 44_command_interface.md R232, R246).
-/

namespace Sys2Proof.Machine

/-- `absdiff(a, b) = |int(a) - int(b)|`, exact (43 R193). -/
def absdiff (a b : Int) : Nat := (a - b).natAbs

/-- The reference sample of a tick: the previous sample, or the sample itself in the baseline tick (43 R194). -/
def refSample (s : State) (cur : Int) : Int := if s.baselineValid then s.prevSample else cur

/-- The trigger of a tick, a strict comparison (43 R194, R195). -/
def trig (s : State) (cur : Int) : Bool := decide (s.params.threshold < absdiff cur (refSample s cur))

/-- `elapsed = (now - blink_start) mod 2^TIME_W` (43 R198). -/
def elapsed (p : Params) (now blinkStart : Nat) : Nat :=
  (((now : Int) - (blinkStart : Int)) % ((2 ^ p.timeW : Nat) : Int)).toNat

/-- `phase = (int(now) div HALF_PERIOD) mod 2` (43 R199). -/
def togglePhase (p : Params) (now : Nat) : Nat := now / p.halfPeriod % 2

/-- `dout = 1` exactly in phase TX_HIGH (10 R34). -/
def dout (s : State) : Bool := decide (s.seq.phase = .high)

/-- `busy = (mode = TX)` (44 R232). -/
def busy (s : State) : Bool := decide (s.mode = .tx)

/-- `halted = (mode = HALTED)` (44 R232). -/
def halted (s : State) : Bool := decide (s.mode = .halted)

/-- `state_blinking`: IDLE = 0, BLINKING = 1 (10 R23, 30 R107). -/
def stateBlinking (s : State) : Bool := decide (s.blink = .blinking)

/-- `diag_valid`: the TX_LOAD cycle (44 R246). -/
def diagValid (s : State) : Bool := decide (s.seq.phase = .load)

/-- `diag_diff`: the signed difference, formed exactly (44 R246). -/
def diagDiff (s : State) : Int := if s.baselineValid then s.curSample - s.prevSample else 0

/-- The output ports (44 R232, R246). -/
structure Outputs where
  dout : Bool
  busy : Bool
  tickDone : Bool
  halted : Bool
  faultCode : BitVec 2
  stateBlinking : Bool
  sensorWarn : Bool
  diagValid : Bool
  diagCur : Int
  diagPrev : Int
  diagDiff : Int
deriving DecidableEq, Repr

/-- The outputs are a function of the state (10 R20). -/
def outputsOf (s : State) : Outputs where
  dout := dout s
  busy := busy s
  tickDone := s.tickDone
  halted := halted s
  faultCode := s.faultCode.bits
  stateBlinking := stateBlinking s
  sensorWarn := s.sensorWarn
  diagValid := diagValid s
  diagCur := s.curSample
  diagPrev := s.prevSample
  diagDiff := diagDiff s

end Sys2Proof.Machine
end

