-- ==== Sys2Proof/Machine/Encoder.lean ====
section
/-!
DEFINITION. The Waveform Encoder and its reference decoder (40_waveform_encoder.md): ENCODE_BIT, ENCODE_BYTE, ENCODE,
DECODE. They read no state but the profile and write none of the block's; what they return stands in `result`.
-/

namespace Sys2Proof.Machine

/-- `ENCODE_BIT(v)`: the high pulse, then the low pulse, of the bit's durations (40 R121). -/
def pulsesOfBit (p : Params) (v : Bool) : List Pulse := [⟨true, highTicks p v⟩, ⟨false, lowTicks p v⟩]

/-- `ENCODE_BYTE(d)`: eight symbols, bit 7 first (40 R122). -/
def pulsesOfByte (p : Params) (d : Byte) : List Pulse := (bitsOf d).flatMap (pulsesOfBit p)

/-- `ENCODE(bs)`: the bytes in order (40 R123). -/
def pulsesOfBytes (p : Params) (bs : List Byte) : List Pulse := bs.flatMap (pulsesOfByte p)

/-- `DECODE_BIT`: a pair of pulses matched exactly, the zero symbol first (40 R126). -/
def decodeBit (p : Params) (a b : Pulse) : Option Bool :=
  if a.level = true ∧ b.level = false ∧ a.dur = p.t0h ∧ b.dur = p.t0l then some false
  else if a.level = true ∧ b.level = false ∧ a.dur = p.t1h ∧ b.dur = p.t1l then some true
  else none

/-- `DECODE_BIT` on consecutive pairs of pulses; an odd pulse fails (40 R126). -/
def decodeBits (p : Params) : List Pulse → Option (List Bool)
  | [] => some []
  | [_] => none
  | a :: b :: rest =>
    match decodeBit p a b, decodeBits p rest with
    | some v, some vs => some (v :: vs)
    | _, _ => none

/-- Groups of eight bits as bytes, the first bit the most significant; a group cut short fails (40 R126). -/
def packBytes : List Bool → Option (List Byte)
  | [] => some []
  | v7 :: v6 :: v5 :: v4 :: v3 :: v2 :: v1 :: v0 :: rest =>
    (packBytes rest).map (byteOf v7 v6 v5 v4 v3 v2 v1 v0 :: ·)
  | _ :: _ => none

/-- `DECODE(ps)`: `none` is its `fail` (40 R126). -/
def decodeTrain (p : Params) (ps : List Pulse) : Option (List Byte) := (decodeBits p ps).bind packBytes

/-- DECODE's answer as a result (40 R126). -/
def resultOfDecode : Option (List Byte) → OpResult
  | some bs => .bytes bs
  | none => .fail

/-- ENCODE_BIT (40 R121). -/
def execEncodeBit (v : Bool) (s : State) : Host.Outcome State Fault Refusal :=
  .next { s with result := .pulses (pulsesOfBit s.params v) }

/-- ENCODE_BYTE (40 R122). -/
def execEncodeByte (d : Byte) (s : State) : Host.Outcome State Fault Refusal :=
  .next { s with result := .pulses (pulsesOfByte s.params d) }

/-- ENCODE (40 R123). -/
def execEncode (bs : List Byte) (s : State) : Host.Outcome State Fault Refusal :=
  .next { s with result := .pulses (pulsesOfBytes s.params bs) }

/-- DECODE (40 R126). -/
def execDecode (ps : List Pulse) (s : State) : Host.Outcome State Fault Refusal :=
  .next { s with result := resultOfDecode (decodeTrain s.params ps) }

end Sys2Proof.Machine
end

