-- ==== Sys2Proof/Machine/Wire.lean ====
section
/-!
DEFINITION. The wire: runs, levels and lengths of pulse trains (41_transmitter.md R147, R148; 30_encoding.md R95), and
the wire symbols of the opcode table (30_encoding.md R92 to R94), which emit their pulses (00_scope.md R10).
-/

namespace Sys2Proof.Machine

/-- `Runs(train)`: neighbouring pulses of equal level are one run of their summed duration (41 R147). -/
def runs : List Pulse → List Pulse
  | [] => []
  | q :: rest =>
    match runs rest with
    | [] => [q]
    | next :: more => if q.level = next.level then ⟨q.level, q.dur + next.dur⟩ :: more else q :: next :: more

/-- `Levels(train)`: one level per protocol tick (41 R147). -/
def levels (train : List Pulse) : List Bool := train.flatMap fun q => List.replicate q.dur q.level

/-- The length of a train in protocol ticks (30 R95). -/
def ticksOf (train : List Pulse) : Nat := (train.map Pulse.dur).sum

/-- The latch pulse `(0, T_LATCH)` (30 R94, 41 R144). -/
def latchPulse (p : Params) : Pulse := ⟨false, p.tLatch⟩

/-- The train of one transmission: the symbols, then the latch (41 R141). -/
def frameTrain (p : Params) (snap : List Byte) : List Pulse := pulsesOfBytes p snap ++ [latchPulse p]

/-- `WireTrace(snap)` (41 R141, R147). -/
def wireTraceOf (p : Params) (snap : List Byte) : List Pulse := runs (frameTrain p snap)

/-- `S`: the length of the symbols of a frame (41 R148). -/
def symbolTicks (p : Params) (snap : List Byte) : Nat := ticksOf (pulsesOfBytes p snap)

/-- The first `n` protocol ticks of a train: what reaches the wire when it is cut there (41 R157). -/
def takeTicks : Nat → List Pulse → List Pulse
  | _, [] => []
  | n, q :: rest =>
    if n = 0 then [] else if n ≤ q.dur then [⟨q.level, n⟩] else q :: takeTicks (n - q.dur) rest

/-- What is on the wire, oldest run first. -/
def wireTrace (s : State) : List Pulse := s.wire.reverse

/-- A train added to the record of the wire. -/
def onWire (train : List Pulse) (s : State) : State := { s with wire := emitAll s.wire train }

/-- SYM0: the data bit 0 on the wire (30 R93). -/
def execSym0 (s : State) : Host.Outcome State Fault Refusal :=
  .next (betweenTicks (onWire (pulsesOfBit s.params false)) s)

/-- SYM1: the data bit 1 on the wire (30 R93). -/
def execSym1 (s : State) : Host.Outcome State Fault Refusal :=
  .next (betweenTicks (onWire (pulsesOfBit s.params true)) s)

/-- LATCH: the line held low for `T_LATCH` protocol ticks (30 R94). -/
def execLatch (s : State) : Host.Outcome State Fault Refusal :=
  .next (betweenTicks (onWire [latchPulse s.params]) s)

/-- PIXEL_WORD: 24 data bits, green, red, blue, each most significant bit first (30 R92). -/
def execPixelWord (g r b : Byte) (s : State) : Host.Outcome State Fault Refusal :=
  .next (betweenTicks (onWire (pulsesOfBytes s.params [g, r, b])) s)

end Sys2Proof.Machine
end

