-- ==== Sys2Proof/Machine/FrameBuffer.lean ====
section
/-!
DEFINITION. The Frame Buffer operations (42_frame_buffer.md): SET_PIXEL, CLEAR, FILL, SNAPSHOT.
The writes have their effect in mode WAIT only (`betweenTicks`).
-/

namespace Sys2Proof.Machine

/-- SET_PIXEL: an index outside [0, LED_COUNT) changes nothing and raises nothing (42 R171, R172). -/
def execSetPixel (index : Nat) (r g b : Byte) (s : State) : Host.Outcome State Fault Refusal :=
  .next (betweenTicks (fun t => { t with fb := fbWrite t.params t.fb index ⟨r, g, b⟩ }) s)

/-- CLEAR (42 R173). -/
def execClear (s : State) : Host.Outcome State Fault Refusal :=
  .next (betweenTicks (fun t => { t with fb := fbClear t.params t.fb }) s)

/-- FILL (42 R174). -/
def execFill (r g b : Byte) (s : State) : Host.Outcome State Fault Refusal :=
  .next (betweenTicks (fun t => { t with fb := fbFill t.params t.fb ⟨r, g, b⟩ }) s)

/-- SNAPSHOT: the wire bytes in order; the Frame Buffer is not changed (42 R176, 20 R71). -/
def execSnapshot (s : State) : Host.Outcome State Fault Refusal :=
  .next { s with result := .bytes (snapshotOf s.params s.fb) }

end Sys2Proof.Machine
end

