-- ==== Sys2Proof/Machine/BlinkController.lean ====
section
/-!
DEFINITION. The Blink Controller (43_blink_controller.md): CTRL_UPDATE and TICK_END.
-/

namespace Sys2Proof.Machine

/-- Whether a trigger opens or restarts a window in this tick (43 R196, R197). -/
def opensWindow (s : State) (cur : Int) : Bool :=
  trig s cur && (decide (s.blink = .idle) || decide (s.params.retrigger = .restart))

/-- The colour of a tick inside the window, painted over the whole buffer (43 R199). Painting COLOR_OFF is CLEAR at
the value R7 gives it (assumption log 14). -/
def paintPhase (p : Params) (now : Nat) (fb : FrameBuffer) : FrameBuffer :=
  fbFill p fb (if togglePhase p now = p.redPhase.val then p.colorOn else p.colorOff)

/-- All pixels off: the colour outside the window (43 R200, R201). -/
def paintOff (p : Params) (fb : FrameBuffer) : FrameBuffer := fbFill p fb p.colorOff

/-- The window and the colour, on the Blink State as the trigger has just left it (43 R198 to R201). -/
def windowUpdate (now : Nat) (s : State) : State :=
  match s.blink with
  | .blinking =>
    if elapsed s.params now s.blinkStart < s.params.blinkDuration then
      { s with fb := paintPhase s.params now s.fb }
    else { s with blink := .idle, fb := paintOff s.params s.fb }
  | .idle => { s with fb := paintOff s.params s.fb }

/-- `CTRL_UPDATE(cur, now)`: first the trigger, then the window and the colour (43 R192, R202). -/
def ctrlUpdate (cur : Int) (now : Nat) (s : State) : State :=
  windowUpdate now (if opensWindow s cur then { s with blink := .blinking, blinkStart := now } else s)

/-- `TICK_END` (43 R204). -/
def tickEnd (s : State) : State := { s with prevSample := s.curSample, baselineValid := true }

/-- CTRL_UPDATE as an operation of its own (43 R202), between ticks. -/
def execCtrlUpdate (cur : Int) (now : Nat) (s : State) : Host.Outcome State Fault Refusal :=
  .next (betweenTicks (ctrlUpdate cur now) s)

/-- TICK_END as an operation of its own (43 R204), between ticks: inside a tick it belongs to the completion edge
alone, since it must not happen in a tick that ends in HALTED. -/
def execTickEnd (s : State) : Host.Outcome State Fault Refusal := .next (betweenTicks tickEnd s)

end Sys2Proof.Machine
end

