-- ==== Sys2Proof/Machine/Transmitter.lean ====
section
/-!
DEFINITION. The Transmitter (41_transmitter.md): the sequencer cycle by cycle (R150 to R155) and TRANSMIT as one
call (R141).
-/

namespace Sys2Proof.Machine

/-- The completion edge: the return of the blocking call and the end of the tick (41 R155, 43 R204). -/
def completeTick (s : State) : State :=
  { tickEnd s with seq := Seq.rest, mode := .wait, tickDone := true }

/-- One step of the sequencer, taken at an edge in mode TX at which `tx_fault` is 0 (41 R150 to R155). -/
def seqEdge (s : State) : State :=
  match s.seq.phase with
  | .idle => s
  | .load => { s with seq := ⟨.high, 0, 7, highTicks s.params (curBit s.fb 0 7)⟩ }
  | .high =>
    if 1 < s.seq.cnt then { s with seq := ⟨.high, s.seq.byteIdx, s.seq.bitIdx, s.seq.cnt - 1⟩ }
    else
      { s with
        seq := ⟨.low, s.seq.byteIdx, s.seq.bitIdx, lowTicks s.params (curBit s.fb s.seq.byteIdx s.seq.bitIdx)⟩ }
  | .low =>
    if 1 < s.seq.cnt then { s with seq := ⟨.low, s.seq.byteIdx, s.seq.bitIdx, s.seq.cnt - 1⟩ }
    else
      match successor s.params s.seq.byteIdx s.seq.bitIdx with
      | none => { s with seq := ⟨.latch, s.params.lastByte, 0, s.params.tLatch⟩ }
      | some (byteIdx, bitIdx) =>
        { s with seq := ⟨.high, byteIdx, bitIdx, highTicks s.params (curBit s.fb byteIdx bitIdx)⟩ }
  | .latch =>
    if 1 < s.seq.cnt then { s with seq := ⟨.latch, s.params.lastByte, 0, s.seq.cnt - 1⟩ } else completeTick s

/-- How many protocol ticks of a train of `total` ticks reach the wire before `tx_fault` is seen at the end of cycle
`n`, where cycle `c + 1` carries tick `c`; `none` where it is never seen (41 R157, 30 R105). -/
def ticksBeforeFault (txFaultAt : Option Nat) (total : Nat) : Option Nat :=
  match txFaultAt with
  | none => none
  | some n => if 1 ≤ n ∧ n ≤ 1 + total then some (n - 1) else none

/-- `TRANSMIT(snap)` as the tick's own transmission (41 R141, R142): the pulses are held on the line one after
another, so `seq` advances to the last cycle of the latch, after which only the completion edge is owed; the record
has every level but that of the cycle under way. A transmission fault cuts it (41 R157). -/
def transmitTick (snap : List Byte) (s : State) : State :=
  match ticksBeforeFault s.pins.txFaultAt (ticksOf (frameTrain s.params snap)) with
  | none =>
    { clearStrobes s with
      seq := ⟨.latch, s.params.lastByte, 0, 1⟩
      wire := emitAll [] (pulsesOfBytes s.params snap ++ [⟨false, s.params.tLatch - 1⟩]) }
  | some k => raiseFatal .txFault { s with wire := emitAll [] (takeTicks k (frameTrain s.params snap)) }

/-- TRANSMIT in mode TX: its operand is the snapshot of the Frame Buffer (41 R141), and it is issued once a tick, in
the TX_LOAD cycle. Any other list, or a call into a transmission under way, is dropped, for transmissions never
overlap (41 R143) and a frame carries its own tick's colours (20 R75). DEDUCED (assumption log 7). -/
def transmitInTx (snap : List Byte) (s : State) : State :=
  if s.seq.phase = .load ∧ snap = snapshotOf s.params s.fb then transmitTick snap s else s

/-- TRANSMIT. A list that is no snapshot is refused (93 U3), and so is every call outside mode TX, which an accepted
tick alone enters (41 R141 `require mode = TX`). -/
def execTransmit (snap : List Byte) (s : State) : Host.Outcome State Fault Refusal :=
  if snap.length = s.params.frameBytes then
    if s.mode = .tx then .next (transmitInTx snap s) else .refused .transmitOutsideTick
  else .refused (.frameLength snap.length)

end Sys2Proof.Machine
end

