-- ==== Sys2Proof/Machine/Command.lean ====
section
/-!
DEFINITION. The commands of the host, each one rising edge of `clk` (44_command_interface.md R236 to R239,
70_reset_and_hazards.md R290, R292), in the priority of 60_exceptions.md R261; and HALT and UNASSIGNED.
-/

namespace Sys2Proof.Machine

/-- An edge that brings no accepted command: what it does depends on the mode alone (44 R238, 60 R261 items 2 to 5 and
8). -/
def nopEdge (s : State) : State :=
  let t := clearStrobes (recordTick s)
  match s.mode with
  | .halted => t
  | .init => if s.pins.initFault then raiseFatal .initFault t else { t with mode := .wait }
  | .tx => if s.pins.txFault then raiseFatal .txFault t else seqEdge t
  | .wait => t

/-- The accept edge of a tick: capture, CTRL_UPDATE and paint at once, and the Transmitter started (44 R236). -/
def acceptTick (sample : Int) (now : Nat) (s : State) : State :=
  { ctrlUpdate sample now (clearStrobes s) with
    curSample := sample, mode := .tx, seq := ⟨.load, 0, 7, 0⟩, wire := [] }

/-- An edge with TICK: accepted in mode WAIT only, elsewhere as NOP (44 R236, R239). -/
def tickEdge (sample : Int) (now : Nat) (s : State) : State :=
  if s.mode = .wait then acceptTick sample now s else nopEdge s

/-- An edge with TICK_SFAULT: in mode WAIT the policy decides, elsewhere as NOP (44 R237, R239; 60 R253, R256). -/
def tickSfaultEdge (s : State) : State :=
  if s.mode = .wait then
    match s.params.sensorFaultPolicy with
    | .fatal => raiseFatal .sensorFault (clearStrobes s)
    | .tolerant => { s with tickDone := true, sensorWarn := true }
  else nopEdge s

/-- An edge with `rst = 1`, in any mode; a frame in progress is cut (70 R290, R291). -/
def resetEdge (s : State) : State := resetBlock (recordTick s)

/-- RESET (70 R290). -/
def execReset (s : State) : Host.Outcome State Fault Refusal := .next (resetEdge s)

/-- NOP (44 R238). -/
def execNop (s : State) : Host.Outcome State Fault Refusal := .next (nopEdge s)

/-- TICK (44 R236). -/
def execTick (sample : Int) (now : Nat) (s : State) : Host.Outcome State Fault Refusal := .next (tickEdge sample now s)

/-- TICK_SFAULT (44 R237). -/
def execTickSfault (s : State) : Host.Outcome State Fault Refusal := .next (tickSfaultEdge s)

/-- HALT: `raise Fatal(code)` for code in {1, 2, 3}; 00 is never raised (60 R254, R251). -/
def execHalt (code : FaultCode) (s : State) : Host.Outcome State Fault Refusal :=
  if code = .none then .refused .haltWithoutCause else .next (raiseFatal code s)

/-- UNASSIGNED: operation ids 1100 to 1111 mean nothing (30 R102, 93 U17). -/
def execUnassigned (_x : BitVec 2) (_s : State) : Host.Outcome State Fault Refusal := .refused .unassignedOperation

end Sys2Proof.Machine
end

