-- ==== Sys2Proof/Machine/Dispatch.lean ====
section
/-!
DEFINITION. The dispatch: one arm for each constructor of Instr, each one direct call of its meaning.
-/

namespace Sys2Proof.Machine

def exec (i : Instr) (s : State) : Host.Outcome State Fault Refusal :=
  match i with
  -- the command vector (30 R99)
  | .reset => Sys2Proof.Machine.execReset s
  | .nop => Sys2Proof.Machine.execNop s
  | .tick sample now => Sys2Proof.Machine.execTick sample now s
  | .tickSfault => Sys2Proof.Machine.execTickSfault s
  -- the operations (30 R100)
  | .encodeBit v => Sys2Proof.Machine.execEncodeBit v s
  | .encodeByte d => Sys2Proof.Machine.execEncodeByte d s
  | .encode bs => Sys2Proof.Machine.execEncode bs s
  | .decode ps => Sys2Proof.Machine.execDecode ps s
  | .transmit snap => Sys2Proof.Machine.execTransmit snap s
  | .setPixel index r g b => Sys2Proof.Machine.execSetPixel index r g b s
  | .clear => Sys2Proof.Machine.execClear s
  | .fill r g b => Sys2Proof.Machine.execFill r g b s
  | .snapshot => Sys2Proof.Machine.execSnapshot s
  | .ctrlUpdate cur now => Sys2Proof.Machine.execCtrlUpdate cur now s
  | .tickEnd => Sys2Proof.Machine.execTickEnd s
  | .halt code => Sys2Proof.Machine.execHalt code s
  | .unassigned x => Sys2Proof.Machine.execUnassigned x s
  -- the wire symbols (30 R92 to R94)
  | .sym0 => Sys2Proof.Machine.execSym0 s
  | .sym1 => Sys2Proof.Machine.execSym1 s
  | .latch => Sys2Proof.Machine.execLatch s
  | .pixelWord g r b => Sys2Proof.Machine.execPixelWord g r b s

end Sys2Proof.Machine
end

