-- ==== Sys2Proof/Machine/Step.lean ====
section
/-!
DEFINITION. One step: the next item of the host's script, decoded and carried out. A command is one rising edge of
`clk`; an operation or a wire symbol is one call of 30_encoding.md R100 (assumption log 1, 5).
-/

namespace Sys2Proof.Machine

/-- One step of the machine. -/
def step (s : State) : Host.Outcome State Fault Refusal :=
  match decode s.params (fetch s).1 with
  | .ok i => exec i (fetch s).2
  | .error why => .refused (.undecodable why)

/-- `s` with the opcode-table word placed as the host's next item (assumption log 1, 6). -/
def State.withFetchWord (s : State) (nbits w : Nat) : State :=
  placeNext (tableStimulus s.params nbits w) s

end Sys2Proof.Machine
end

