-- ==== Sys2Proof/Machine/Program.lean ====
section
/-!
DEFINITION. The host programs of 30_encoding.md R105: each line is applied when the block can accept it, and is here the
run of clock edges it stands for. No instruction uses this file.
-/

namespace Sys2Proof.Machine

/-- A line of a host program. `txFaultAt` is `TXFAULT @n` on that tick (30 R105). -/
inductive Line where
  | reset (initFault : Bool)
  | tick (sample : Int) (now : Nat) (txFaultAt : Option Nat)
  | tickSfault
deriving DecidableEq, Repr

/-- NOP edges from cycle `cycle` of a tick on, `fuel` of them at most, until mode TX is left. -/
def runTick (txFaultAt : Option Nat) : Nat → Nat → State → State
  | 0, _, s => s
  | fuel + 1, cycle, s =>
    if s.mode = .tx then
      runTick txFaultAt fuel (cycle + 1) (nopEdge { s with pins := { txFault := decide (txFaultAt = some cycle) } })
    else s

/-- The cycles mode TX lasts when no fault strikes: `1 + S + T_LATCH` (41 R156). -/
def tickCycles (s : State) : Nat := 1 + symbolTicks s.params (snapshotOf s.params s.fb) + s.params.tLatch

/-- A line carried out: RESET for one cycle and then one NOP cycle; a tick with NOPs until it completes; a failed read
(30 R105). -/
def runLine (l : Line) (s : State) : State :=
  match l with
  | .reset initFault => nopEdge { resetEdge s with pins := { initFault := initFault } }
  | .tick sample now txFaultAt =>
    let accepted := tickEdge sample now { s with pins := {} }
    runTick txFaultAt (tickCycles accepted) 1 accepted
  | .tickSfault => tickSfaultEdge { s with pins := {} }

/-- A host program: its lines in order. -/
def runProgram (ls : List Line) (s : State) : State := ls.foldl (fun t l => runLine l t) s

end Sys2Proof.Machine
end

