-- ==== Sys2Proof/Safety.lean ====
section
/-!
DEFINITION. What counts as a safe state and a safe run: the invariant of the block, the clock edges of a run without
commands, and which instructions are commands of the host.
-/

namespace Sys2Proof.Machine

/-- The Frame Buffer has exactly LED_COUNT pixels (10 R21). -/
abbrev FbOk (s : State) : Prop := s.fb.length = s.params.ledCount

/-- The sequencer's position fits its phase: at rest outside mode TX, and inside it somewhere on the way from
TX_LOAD to the latch with at least one tick left to count (10 R33, 41 R150 to R155). -/
abbrev SeqOk (s : State) : Prop :=
  (s.mode ≠ .tx → s.seq = Seq.rest) ∧
  (s.mode = .tx → s.seq.phase ≠ .idle) ∧
  (s.seq.phase = .load → s.seq = ⟨.load, 0, 7, 0⟩) ∧
  (s.seq.phase = .latch → s.seq.byteIdx = s.params.lastByte ∧ s.seq.bitIdx = 0) ∧
  (s.seq.phase = .high ∨ s.seq.phase = .low ∨ s.seq.phase = .latch → 1 ≤ s.seq.cnt) ∧
  s.seq.cnt < 2 ^ s.params.durW ∧ s.seq.byteIdx < s.params.frameBytes

/-- `fault_code` is 0 exactly when the block is not halted (10 R31). -/
abbrev FaultCodeOk (s : State) : Prop := s.faultCode = .none ↔ s.mode ≠ .halted

/-- `tick_done` is raised in mode WAIT only, and `sensor_warn` only with it and only under the tolerant policy
(10 R28). -/
abbrev StrobesOk (s : State) : Prop :=
  (s.tickDone = true → s.mode = .wait) ∧
  (s.sensorWarn = true → s.tickDone = true ∧ s.params.sensorFaultPolicy = .tolerant)

/-- The data registers hold values of their widths (10 R20). -/
abbrev RegistersOk (s : State) : Prop :=
  s.params.TimeOk s.blinkStart ∧ s.params.SampleOk s.prevSample ∧ s.params.SampleOk s.curSample

/-- The invariant of the block. -/
abbrev Inv (s : State) : Prop := s.params.Wf ∧ FbOk s ∧ SeqOk s ∧ FaultCodeOk s ∧ StrobesOk s ∧ RegistersOk s

/-- The command vector's instructions: one clock edge each (30 R99). -/
def isCommand : Instr → Bool
  | .reset => true
  | .nop => true
  | .tick _ _ => true
  | .tickSfault => true
  | .encodeBit _ => false
  | .encodeByte _ => false
  | .encode _ => false
  | .decode _ => false
  | .transmit _ => false
  | .setPixel _ _ _ _ => false
  | .clear => false
  | .fill _ _ _ => false
  | .snapshot => false
  | .ctrlUpdate _ _ => false
  | .tickEnd => false
  | .halt _ => false
  | .unassigned _ => false
  | .sym0 => false
  | .sym1 => false
  | .latch => false
  | .pixelWord _ _ _ => false

/-- The commands with `rst = 0` (30 R99). -/
def isCommandWithoutReset : Instr → Bool
  | .reset => false
  | .nop => true
  | .tick _ _ => true
  | .tickSfault => true
  | .encodeBit _ => false
  | .encodeByte _ => false
  | .encode _ => false
  | .decode _ => false
  | .transmit _ => false
  | .setPixel _ _ _ _ => false
  | .clear => false
  | .fill _ _ _ => false
  | .snapshot => false
  | .ctrlUpdate _ _ => false
  | .tickEnd => false
  | .halt _ => false
  | .unassigned _ => false
  | .sym0 => false
  | .sym1 => false
  | .latch => false
  | .pixelWord _ _ _ => false

/-- A host that has just had a tick accepted and presents nothing more: the state at the start of cycle 1 (41 R150).
-/
abbrev AtTickStart (s : State) : Prop :=
  s.mode = .tx ∧ s.seq = ⟨.load, 0, 7, 0⟩ ∧ s.wire = [] ∧ s.script = []

/-- `1 + S + T_LATCH`: the number of cycles the tick in progress takes when no fault strikes (41 R148, R156). -/
abbrev frameCycles (s : State) : Nat := 1 + symbolTicks s.params (snapshotOf s.params s.fb) + s.params.tLatch

/-- Only the wire, the sequencer and the strobes may differ: what a cycle inside a transmission leaves alone (41
R150). -/
abbrev SameOutsideTheSequencer (s t : State) : Prop :=
  t = { s with seq := t.seq, tickDone := t.tickDone, sensorWarn := t.sensorWarn, wire := t.wire }

end Sys2Proof.Machine
end

