-- ==== Sys2Proof/Certificates/Slice0/Obligations.lean ====
section
/-!
DEFINITION. The statements for the provers, in the order: decoding and stepping, the command vector, the sequencer, the
Waveform Encoder, the Transmitter and the wire, the Frame Buffer, the Blink Controller, faults, whole-machine rules.
-/

open Sys2Proof Sys2Proof.Machine

/-! ### Decoding and stepping -/

/-- Every row of the command decode of 30 R99: all eight values of `cmd`, with the operands TICK takes from its
ports. -/
def Obligations.CommandVectorDecodesByItsRows : Prop :=
  ∀ (p : Params) (rst tickReq sampleFault : Bool) (x : Stimulus),
    x.word = .command (BitVec.ofBool rst ++ BitVec.ofBool tickReq ++ BitVec.ofBool sampleFault) →
    decode p x = .ok
      (if rst then .reset
       else if !tickReq then .nop
       else if !sampleFault then .tick (signedOf p.sampleW x.sample) (x.nowMs % 2 ^ p.timeW)
       else .tickSfault)

/-- Words written out from 30 R92, R93, R98, R100 and 95 P1, P3, P4 decode to what they stand for. A sanity
statement on fixed words. -/
def Obligations.WordsOfTheSpecDecode : Prop :=
  decode Config.params { word := .command 0b010, sample := 0x03E8, nowMs := 0x64 } = .ok (.tick 1000 100) ∧
  decode Config.params { word := .command 0b010, sample := 0xFF37, nowMs := 0x64 } = .ok (.tick (-201) 100) ∧
  decode Config.params { word := .operation 36 0x50DAA55F0 } = .ok (.setPixel 13 0xAA 0x55 0xF0) ∧
  decode Config.params { word := .operation 28 0x7FF0001 } = .ok (.fill 255 0 1) ∧
  decode Config.params { word := .operation 12 0b000110100101 } = .ok (.encodeByte 0xA5) ∧
  decode Config.params { word := .operation 6 0b101110 } = .ok (.halt .sensorFault) ∧
  decode Config.params { word := .data 24 0x00FF01 } = .ok (.pixelWord 0 255 1)

/-- Decoding what the encoder writes gives the instruction back, every operand at every value it may have. -/
def Obligations.DecodeOfEncodeIsTheInstruction : Prop :=
  ∀ (p : Params) (i : Instr), wellFormed p i = true → decode p (encode p i) = .ok i

/-- Nothing reserved falls through to a neighbour (30 R100, R102): an operation word that decodes has a length of
the table (SET_PIXEL's with its IDX_W index bits), is a word of that many bits, is no command, and is the very word
the encoder writes for the instruction it decodes to. That operation words are read at all is the model's choice
(assumption log 5). -/
def Obligations.OnlyTableLengthsDecodeAsOperations : Prop :=
  ∀ (p : Params) (x : Stimulus) (len val : Nat) (i : Instr),
    x.word = .operation len val → decode p x = .ok i →
    (len = 4 ∨ len = 5 ∨ len = 6 ∨ len = 12 ∨ len = 28 ∨ len = 28 + p.idxW) ∧ val < 2 ^ len ∧ isCommand i = false ∧
      (encode p i).word = x.word

/-- The samples and times the decoder takes from the ports are values of `s SAMPLE_W` and `u TIME_W` (44 R231). -/
def Obligations.DecodedOperandsFitTheirPorts : Prop :=
  ∀ (p : Params) (x : Stimulus) (cur : Int) (now : Nat),
    decode p x = .ok (.tick cur now) ∨ decode p x = .ok (.ctrlUpdate cur now) → p.SampleOk cur ∧ p.TimeOk now

/-- One step runs the instruction the next item decodes to, with that item taken off the script and its pins in
place; with an empty script it is an edge without a command and with every pin low (assumption log 1); and an
opcode-table word placed with `withFetchWord` is what the very next step runs. -/
def Obligations.StepRunsTheDecodedInstruction : Prop :=
  (∀ (s : State) (x : Stimulus) (rest : List Stimulus) (i : Instr),
    s.script = x :: rest → decode s.params x = .ok i →
    step s = exec i { s with script := rest, pins := x.pins }) ∧
  (∀ s : State, s.script = [] → step s = exec .nop { s with pins := {} }) ∧
  (∀ (s : State) (nbits w : Nat) (i : Instr),
    decode s.params (tableStimulus s.params nbits w) = .ok i →
    step (s.withFetchWord nbits w) = exec i { s with pins := {} })

/-! ### The command vector -/

/-- RESET in any mode and with any pins: every element of the block's state at its reset value (10 R37), the line low;
the parameters and the host's side are not touched. -/
def Obligations.ResetLeavesTheResetState : Prop :=
  ∀ s : State, ∃ t : State, exec .reset s = .next t ∧
    t.fb = List.replicate s.params.ledCount ⟨0, 0, 0⟩ ∧
    t.blink = .idle ∧ t.blinkStart = 0 ∧ t.prevSample = 0 ∧ t.baselineValid = false ∧ t.curSample = 0 ∧
    t.mode = .init ∧ t.faultCode = .none ∧ t.seq = ⟨.idle, 0, 7, 0⟩ ∧ t.tickDone = false ∧ t.sensorWarn = false ∧
    dout t = false ∧ busy t = false ∧ halted t = false ∧
    t.params = s.params ∧ t.pins = s.pins ∧ t.script = s.script ∧ t.result = s.result

/-- NOP (44 R238): in mode WAIT or HALTED nothing changes but the strobes; mode INIT is left; in mode TX a
transmission fault halts and otherwise the sequencer steps. -/
def Obligations.NopDoesNothingOfItsOwn : Prop :=
  ∀ s : State, ∃ t : State, exec .nop s = .next t ∧ t.tickDone = (decide (s.mode = .tx ∧ t.mode = .wait)) ∧
    t.sensorWarn = false ∧
    (s.mode = .wait ∨ s.mode = .halted → t = { s with tickDone := false, sensorWarn := false }) ∧
    (s.mode = .init → t.mode ≠ .init) ∧
    (s.mode = .tx → s.pins.txFault = true → t.mode = .halted) ∧
    (s.mode = .tx → s.pins.txFault = false → s.seq.phase ≠ .idle → t.seq ≠ s.seq)

/-- The edge that leaves INIT decides startup, whatever command stands at it (70 R292): a tick presented there is
dropped. -/
def Obligations.InitEdgeDecidesStartup : Prop :=
  ∀ (s : State) (i : Instr), isCommandWithoutReset i = true → s.mode = .init →
    exec i s = .next
      (if s.pins.initFault then
        { s with mode := .halted, faultCode := .initFault, seq := ⟨.idle, 0, 7, 0⟩, tickDone := false,
                 sensorWarn := false }
       else { s with mode := .wait, tickDone := false, sensorWarn := false })

/-- The accept edge of a tick (44 R236): the sample is captured, CTRL_UPDATE done, the Transmitter started, and
nothing else of the block changes. The trace of the wire starts anew (assumption log 4). -/
def Obligations.TickAcceptedInWait : Prop :=
  ∀ (s : State) (sample : Int) (now : Nat), s.mode = .wait →
    ∃ u : State, exec (.ctrlUpdate sample now) s = .next u ∧
      exec (.tick sample now) s = .next
        { s with
          curSample := sample, blink := u.blink, blinkStart := u.blinkStart, fb := u.fb, mode := .tx,
          seq := ⟨.load, 0, 7, 0⟩, tickDone := false, sensorWarn := false, wire := [] }

/-- The outputs in cycle 1 of an accepted tick (44 R246): the diagnostic group shows this tick's sample, the
previous one and their signed difference, 0 in the baseline tick; `busy` is 1 and the line still low. -/
def Obligations.DiagnosticsOfAnAcceptedTick : Prop :=
  ∀ (s : State) (sample : Int) (now : Nat), s.mode = .wait →
    ∃ t : State, exec (.tick sample now) s = .next t ∧
      outputsOf t =
        { dout := false, busy := true, tickDone := false, halted := false, faultCode := s.faultCode.bits,
          stateBlinking := decide (t.blink = .blinking), sensorWarn := false, diagValid := true, diagCur := sample,
          diagPrev := s.prevSample, diagDiff := if s.baselineValid then sample - s.prevSample else 0 }

/-- A TICK or TICK_SFAULT outside mode WAIT is exactly a NOP (44 R239). -/
def Obligations.TickOutsideWaitIsNop : Prop :=
  ∀ (s : State) (sample : Int) (now : Nat), s.mode ≠ .wait →
    exec (.tick sample now) s = exec .nop s ∧ exec .tickSfault s = exec .nop s

/-- TICK_SFAULT in mode WAIT under each policy (44 R237): FATAL halts with code 2 and touches no data; TOLERANT
skips the tick whole and raises both strobes. -/
def Obligations.FailedReadHaltsOrSkips : Prop :=
  ∀ s : State, s.mode = .wait →
    (s.params.sensorFaultPolicy = .fatal →
      exec .tickSfault s = .next
        { s with mode := .halted, faultCode := .sensorFault, seq := ⟨.idle, 0, 7, 0⟩, tickDone := false,
                 sensorWarn := false }) ∧
    (s.params.sensorFaultPolicy = .tolerant →
      exec .tickSfault s = .next { s with tickDone := true, sensorWarn := true })

/-! ### The sequencer -/

/-- Phase TX_LOAD (41 R152): one cycle, then the first bit's high pulse. -/
def Obligations.LoadCycleStartsTheFirstBit : Prop :=
  ∀ (s : State) (i : Instr), isCommandWithoutReset i = true → s.mode = .tx → s.pins.txFault = false →
    s.seq.phase = .load →
    dout s = false ∧
    ∃ t : State, exec i s = .next t ∧ SameOutsideTheSequencer s t ∧ t.tickDone = false ∧ t.sensorWarn = false ∧
      t.seq = ⟨.high, 0, 7, if (snapByte s.fb 0).getLsbD 7 then s.params.t1h else s.params.t0h⟩

/-- Phase TX_HIGH (41 R153): count down, then the low pulse of the same bit. -/
def Obligations.HighPulseCountsDownThenFalls : Prop :=
  ∀ (s : State) (i : Instr), isCommandWithoutReset i = true → s.mode = .tx → s.pins.txFault = false →
    s.seq.phase = .high →
    dout s = true ∧
    ∃ t : State, exec i s = .next t ∧ SameOutsideTheSequencer s t ∧ t.tickDone = false ∧ t.sensorWarn = false ∧
      t.seq =
        (if 1 < s.seq.cnt then ⟨.high, s.seq.byteIdx, s.seq.bitIdx, s.seq.cnt - 1⟩
         else ⟨.low, s.seq.byteIdx, s.seq.bitIdx,
           if (snapByte s.fb s.seq.byteIdx).getLsbD s.seq.bitIdx then s.params.t1l else s.params.t0l⟩)

/-- Phase TX_LOW (41 R154): count down, then the next bit with no idle cycle between, or the latch after bit 0 of
the last byte, byte 41 where LED_COUNT is 14 (assumption log 2). -/
def Obligations.LowPulseCountsDownThenNextBitOrLatch : Prop :=
  ∀ (s : State) (i : Instr), isCommandWithoutReset i = true → s.mode = .tx → s.pins.txFault = false →
    s.seq.phase = .low → s.seq.byteIdx < s.params.frameBytes →
    (s.params.ledCount = 14 → s.params.lastByte = 41) ∧ dout s = false ∧
    ∃ t : State, exec i s = .next t ∧ SameOutsideTheSequencer s t ∧ t.tickDone = false ∧ t.sensorWarn = false ∧
      (1 < s.seq.cnt → t.seq = ⟨.low, s.seq.byteIdx, s.seq.bitIdx, s.seq.cnt - 1⟩) ∧
      (s.seq.cnt ≤ 1 → s.seq.byteIdx = s.params.lastByte → s.seq.bitIdx = 0 →
        t.seq = ⟨.latch, s.params.lastByte, 0, s.params.tLatch⟩) ∧
      (s.seq.cnt ≤ 1 → ¬ (s.seq.byteIdx = s.params.lastByte ∧ s.seq.bitIdx = 0) →
        t.seq.phase = .high ∧
        8 * t.seq.byteIdx + (7 - t.seq.bitIdx.val) = 8 * s.seq.byteIdx + (7 - s.seq.bitIdx.val) + 1 ∧
        t.seq.cnt = if (snapByte s.fb t.seq.byteIdx).getLsbD t.seq.bitIdx then s.params.t1h else s.params.t0h)

/-- Phase TX_LATCH (41 R155): one step of the countdown, or the completion edge with TICK_END and the strobe. Byte
41 of the rule is the last byte of the frame (assumption log 2). -/
def Obligations.LatchCountsDownThenCompletesTheTick : Prop :=
  ∀ (s : State) (i : Instr), isCommandWithoutReset i = true → s.mode = .tx → s.pins.txFault = false →
    s.seq.phase = .latch →
    (s.params.ledCount = 14 → s.params.lastByte = 41) ∧ dout s = false ∧
    ∃ t : State, exec i s = .next t ∧
      t =
        (if 1 < s.seq.cnt then
          { s with
            seq := ⟨.latch, s.params.lastByte, 0, s.seq.cnt - 1⟩, tickDone := false, sensorWarn := false,
            wire := t.wire }
         else
          { s with
            seq := ⟨.idle, 0, 7, 0⟩, mode := .wait, prevSample := s.curSample, baselineValid := true, tickDone := true,
            sensorWarn := false, wire := t.wire })

/-- The record of the wire (41 R156; the model's observation, assumption log 4): every command but an accepted tick
adds the level of the cycle that ends, if a pulse or the latch was on the line, and nothing otherwise. -/
def Obligations.EveryCommandRecordsTheCycleThatEnds : Prop :=
  ∀ (s : State) (i : Instr), isCommand i = true → (s.mode = .wait → ∀ (sample : Int) (now : Nat), i ≠ .tick sample now) →
    ∃ t : State, exec i s = .next t ∧
      levels (wireTrace t) =
        levels (wireTrace s) ++
          (if s.mode = .tx ∧ (s.seq.phase = .high ∨ s.seq.phase = .low ∨ s.seq.phase = .latch) then [dout s] else [])

/-- A transmission fault (41 R157): at any edge in mode TX, the completion edge included, the block halts with code 3
instead of stepping; TICK_END does not happen, the Frame Buffer and the Blink State keep their values, and the cycle
that ends is still on the wire. The record is the model's (assumption log 4). -/
def Obligations.TxFaultHaltsInsteadOfStepping : Prop :=
  ∀ (s : State) (i : Instr), isCommandWithoutReset i = true → s.mode = .tx → s.pins.txFault = true →
    ∃ t : State, exec i s = .next t ∧ dout t = false ∧
      levels (wireTrace t) =
        levels (wireTrace s) ++
          (if s.seq.phase = .high then [true]
           else if s.seq.phase = .low ∨ s.seq.phase = .latch then [false] else []) ∧
      t =
        { s with
          mode := .halted, faultCode := .txFault, seq := ⟨.idle, 0, 7, 0⟩, tickDone := false, sensorWarn := false,
          wire := t.wire }

/-- The fault pins are looked at only where 60 R251 says: outside mode TX the level of `tx_fault`, and outside mode
INIT the level of `init_fault`, changes nothing a command does. -/
def Obligations.FaultPinsAreIgnoredElsewhere : Prop :=
  ∀ (s : State) (i : Instr) (b : Bool), isCommand i = true →
    ∃ t : State, exec i s = .next t ∧
      (s.mode ≠ .tx →
        exec i { s with pins := { s.pins with txFault := b } } =
          .next { t with pins := { s.pins with txFault := b } }) ∧
      (s.mode ≠ .init →
        exec i { s with pins := { s.pins with initFault := b } } =
          .next { t with pins := { s.pins with initFault := b } })

/-- The cycle level yields the trace level (41 R156): a tick that no fault strikes keeps mode TX for exactly `1 + S
+ T_LATCH` cycles, `dout` is 0 in the first and then exactly the levels of the wire trace, and the completion edge
leaves that trace on the wire and the tick ended. Before that edge the block stands where TRANSMIT of the snapshot,
issued at the start, leaves it in one step. The record and that step are the model's (assumption log 4, 7). -/
def Obligations.CyclesOfATickAreTheWireTrace : Prop :=
  ∀ s : State, s.params.Wf → AtTickStart s →
    dout s = false ∧
    (∀ k : Nat, k < frameCycles s →
      ∃ t : State, Sys2Proof.core.run k s = .next t ∧ t.mode = .tx ∧ t.fb = s.fb ∧
        (1 ≤ k → (levels (wireTraceOf s.params (snapshotOf s.params s.fb)))[k - 1]? = some (dout t))) ∧
    (∃ t : State, Sys2Proof.core.run (frameCycles s) s = .next t ∧
      wireTrace t = wireTraceOf s.params (snapshotOf s.params s.fb) ∧
      t =
        { s with
          pins := {}, mode := .wait, seq := ⟨.idle, 0, 7, 0⟩, prevSample := s.curSample, baselineValid := true,
          tickDone := true, sensorWarn := false, wire := t.wire }) ∧
    Sys2Proof.core.run (frameCycles s - 1) s = exec (.transmit (snapshotOf s.params s.fb)) { s with pins := {} }

/-- A frame cut by a fault (41 R157): if `tx_fault` is first seen at the edge that ends cycle `k + 1`, the first `k`
levels of the wire trace have reached the wire and no more. The record is the model's (assumption log 4). -/
def Obligations.CutFrameIsAPrefixOfTheTrace : Prop :=
  ∀ (s : State) (k : Nat), s.params.Wf → AtTickStart s → k < frameCycles s →
    ∃ t u : State, Sys2Proof.core.run k s = .next t ∧
      exec .nop { t with pins := { t.pins with txFault := true } } = .next u ∧
      u.mode = .halted ∧ u.faultCode = .txFault ∧ u.prevSample = s.prevSample ∧ u.fb = s.fb ∧
      levels (wireTrace u) = (levels (wireTraceOf s.params (snapshotOf s.params s.fb))).take k

/-- Every accepted tick emits exactly one frame (43 R203), of the colours computed in its own tick (20 R75), and ends
with its sample as the reference of the next (43 R204). The record is the model's (assumption log 4). -/
def Obligations.AcceptedTickSendsItsOwnFrame : Prop :=
  ∀ (s : State) (sample : Int) (now : Nat), s.params.Wf → s.mode = .wait → s.script = [] →
    ∃ t u : State, exec (.tick sample now) s = .next t ∧ Sys2Proof.core.run (frameCycles t) t = .next u ∧
      u.mode = .wait ∧ u.tickDone = true ∧ u.prevSample = sample ∧ u.baselineValid = true ∧
      u.fb = t.fb ∧ u.blink = t.blink ∧ u.blinkStart = t.blinkStart ∧
      wireTrace u = wireTraceOf s.params (snapshotOf s.params u.fb)

/-- The same Frame Buffer contents give the same wire trace both times (20 R71, 40 R128), whatever else differs
between the two states. The record is the model's (assumption log 4). -/
def Obligations.SameFrameBufferSameTrace : Prop :=
  ∀ s u : State, s.params.Wf → AtTickStart s → AtTickStart u → u.params = s.params → u.fb = s.fb →
    ∃ s' u' : State, Sys2Proof.core.run (frameCycles s) s = .next s' ∧ Sys2Proof.core.run (frameCycles u) u = .next u' ∧
      wireTrace s' = wireTrace u' ∧ s'.fb = s.fb

/-! ### The Waveform Encoder -/

/-- ENCODE_BIT (40 R121): high first, both durations selected by the bit; nothing else changes. -/
def Obligations.EncodeBitIsHighThenLow : Prop :=
  ∀ (s : State) (v : Bool),
    exec (.encodeBit v) s = .next
      { s with
        result := .pulses
          (if v then [⟨true, s.params.t1h⟩, ⟨false, s.params.t1l⟩]
           else [⟨true, s.params.t0h⟩, ⟨false, s.params.t0l⟩]) }

/-- ENCODE_BYTE (40 R122): eight symbols from bit 7 down to bit 0, sixteen pulses. -/
def Obligations.EncodeByteIsMostSignificantBitFirst : Prop :=
  ∀ (s : State) (d : Byte),
    ∃ ps : List Pulse, exec (.encodeByte d) s = .next { s with result := .pulses ps } ∧ ps.length = 16 ∧
      ∀ k : Nat, k < 8 →
        ps[2 * k]? = some ⟨true, if d.getLsbD (7 - k) then s.params.t1h else s.params.t0h⟩ ∧
        ps[2 * k + 1]? = some ⟨false, if d.getLsbD (7 - k) then s.params.t1l else s.params.t0l⟩

/-- ENCODE (40 R123): 16 pulses a byte, pulse `2m` and `2m + 1` those of bit `7 - (m mod 8)` of byte `m div 8`, no
latch. -/
def Obligations.EncodeEmitsEveryBitInOrder : Prop :=
  ∀ (s : State) (bs : List Byte),
    ∃ ps : List Pulse, exec (.encode bs) s = .next { s with result := .pulses ps } ∧ ps.length = 16 * bs.length ∧
      ∀ (m : Nat) (h : m / 8 < bs.length),
        ps[2 * m]? = some ⟨true, if bs[m / 8].getLsbD (7 - m % 8) then s.params.t1h else s.params.t0h⟩ ∧
        ps[2 * m + 1]? = some ⟨false, if bs[m / 8].getLsbD (7 - m % 8) then s.params.t1l else s.params.t0l⟩

/-- DECODE (40 R126) completes on every train and accepts exactly the trains ENCODE yields, with their bytes; every
other train, one of a length that is no multiple of 16 among them, gives `fail`, a result and no fault. -/
def Obligations.DecodeAcceptsExactlyTheEncodedTrains : Prop :=
  ∀ (s : State) (ps : List Pulse), (s.params.t0h, s.params.t0l) ≠ (s.params.t1h, s.params.t1l) →
    ∃ r : OpResult, exec (.decode ps) s = .next { s with result := r } ∧
      (∀ bs : List Byte, r = .bytes bs ↔ exec (.encode bs) s = .next { s with result := .pulses ps }) ∧
      ((∀ bs : List Byte, r ≠ .bytes bs) → r = .fail) ∧
      (ps.length % 16 ≠ 0 → r = .fail)

/-- The round trip (40 R127): `DECODE(ENCODE(bs)) = bs`. -/
def Obligations.DecodeOfEncodedBytesIsTheBytes : Prop :=
  ∀ (s : State) (bs : List Byte), (s.params.t0h, s.params.t0l) ≠ (s.params.t1h, s.params.t1l) →
    ∃ ps : List Pulse, exec (.encode bs) s = .next { s with result := .pulses ps } ∧
      exec (.decode ps) { s with result := .pulses ps } = .next { s with result := .bytes bs }

/-! ### The Transmitter at trace level, and the wire symbols -/

/-- TRANSMIT of the tick in progress (41 R141): issued in the TX_LOAD cycle with the snapshot of the Frame Buffer it
holds every level of `ENCODE(snap) ++ [(0, T_LATCH)]` on the line, the last of them in the cycle it ends in, and the
edge after it is the completion edge with `Runs` of that train on record. A `tx_fault` at the edge ending cycle `n`
raises Fatal(TX_FAULT) with the first `n - 1` levels on the wire; an `n` of 0 or beyond the last cycle is never
seen. The record is the model's (assumption log 4), so is the pin `txFaultAt` (assumption log 8), and so is the
clause on `seq`: R141 says that `seq` advances, and that one step takes it to the last cycle of the latch is the
model's choice (assumption log 7). -/
def Obligations.TransmitPutsTheTrainOnTheWire : Prop :=
  ∀ s : State, s.params.Wf → s.mode = .tx → s.seq.phase = .load →
    ∃ (snap : List Byte) (ps : List Pulse), snap = snapshotOf s.params s.fb ∧
      exec (.encode snap) s = .next { s with result := .pulses ps } ∧
      ((∀ n : Nat, s.pins.txFaultAt = some n → n = 0 ∨ 1 + ticksOf ps + s.params.tLatch < n) →
        ∃ t u : State, exec (.transmit snap) s = .next t ∧
          t =
            { s with
              seq := ⟨.latch, s.params.lastByte, 0, 1⟩, tickDone := false, sensorWarn := false, wire := t.wire } ∧
          levels (wireTrace t) ++ [dout t] = levels (ps ++ [⟨false, s.params.tLatch⟩]) ∧
          exec .nop { t with pins := {} } = .next u ∧ u.mode = .wait ∧ u.tickDone = true ∧
          wireTrace u = runs (ps ++ [⟨false, s.params.tLatch⟩])) ∧
      (∀ n : Nat, s.pins.txFaultAt = some n → 1 ≤ n → n ≤ 1 + ticksOf ps + s.params.tLatch →
        ∃ t : State, exec (.transmit snap) s = .next t ∧
          levels (wireTrace t) = (levels (ps ++ [⟨false, s.params.tLatch⟩])).take (n - 1) ∧
          t =
            { s with
              mode := .halted, faultCode := .txFault, seq := ⟨.idle, 0, 7, 0⟩, tickDone := false, sensorWarn := false,
              wire := t.wire })

/-- TRANSMIT is entered by an accepted tick only (41 R141, R143): in mode WAIT it is refused, whatever the list and the
pins; the accept edge of any TICK enters it (44 R236); it returns with `busy` still 1 (41 R142), and the completion
edge then ends the tick: mode WAIT, TICK_END, the strobe, and `WireTrace` of the snapshot on the line. The record is
the model's (assumption log 4), and so is TRANSMIT as one step and its refusal where R141's `require` fails
(assumption log 7). -/
def Obligations.TransmitIsEnteredByAnAcceptedTickOnly : Prop :=
  ∀ (s : State) (sample : Int) (now : Nat), s.params.Wf → s.mode = .wait →
    (∀ snap : List Byte, ∃ why : Refusal, exec (.transmit snap) s = .refused why ∧
      (snap.length = s.params.frameBytes → why = .transmitOutsideTick)) ∧
    ∃ t u v : State, exec (.tick sample now) s = .next t ∧
      exec (.transmit (snapshotOf t.params t.fb)) { t with pins := {} } = .next u ∧ u.mode = .tx ∧ busy u = true ∧
      exec .nop u = .next v ∧
      v =
        { t with
          pins := {}, mode := .wait, seq := ⟨.idle, 0, 7, 0⟩, prevSample := sample, baselineValid := true,
          tickDone := true, wire := v.wire } ∧
      wireTrace v = wireTraceOf s.params (snapshotOf s.params t.fb)

/-- The shape of a frame on the wire (41 R147): two runs a bit, 672 where LED_COUNT is 14, the last of them the low
pulse of the last symbol and the latch together; as the completion edge after TRANSMIT leaves it. The record and
TRANSMIT as one step are the model's (assumption log 4, 7). -/
def Obligations.FrameHasSixHundredSeventyTwoRuns : Prop :=
  ∀ s : State, s.params.Wf → s.mode = .tx → s.seq.phase = .load → s.pins.txFaultAt = none →
    ∃ t u : State, exec (.transmit (snapshotOf s.params s.fb)) s = .next t ∧
      exec .nop { t with pins := {} } = .next u ∧
      u.wire.length = 2 * s.params.frameBits ∧ (s.params.ledCount = 14 → u.wire.length = 672) ∧
      u.wire.head? = some ⟨false,
        (if (snapByte s.fb s.params.lastByte).getLsbD 0 then s.params.t1l else s.params.t0l) + s.params.tLatch⟩

/-- The length of a frame (30 R95, 41 R148): with `z` zero bits among its FRAME_BITS, 336 where LED_COUNT is 14; as
the completion edge after TRANSMIT leaves it on record. The record and TRANSMIT as one step are the model's
(assumption log 4, 7). -/
def Obligations.FrameLengthCountsItsZeroBits : Prop :=
  ∀ s : State, s.params.Wf → s.mode = .tx → s.seq.phase = .load → s.pins.txFaultAt = none →
    ∃ (t u : State) (z : Nat), exec (.transmit (snapshotOf s.params s.fb)) s = .next t ∧
      exec .nop { t with pins := {} } = .next u ∧
      z = ((snapshotOf s.params s.fb).flatMap bitsOf).count false ∧ z ≤ s.params.frameBits ∧
      ticksOf u.wire =
        z * (s.params.t0h + s.params.t0l) + (s.params.frameBits - z) * (s.params.t1h + s.params.t1l) + s.params.tLatch

/-- Where TRANSMIT has no effect: it is refused on a list that is no snapshot of FRAME_BYTES bytes (93 U3) and in
the modes INIT, WAIT and HALTED (41 R141 `require mode = TX`); in mode TX a call into a transmission under way (41
R143) and a list other than the snapshot of this tick (20 R75) are dropped whole. The readings are the model's
(assumption log 7, 16). -/
def Obligations.TransmitHasNoEffectOutsideItsContract : Prop :=
  ∀ (s : State) (snap : List Byte),
    (snap.length ≠ s.params.frameBytes → exec (.transmit snap) s = .refused (.frameLength snap.length)) ∧
    (snap.length = s.params.frameBytes → s.mode = .init ∨ s.mode = .wait ∨ s.mode = .halted →
      exec (.transmit snap) s = .refused .transmitOutsideTick) ∧
    (snap.length = s.params.frameBytes → s.mode = .tx →
      s.seq.phase ≠ .load ∨ snap ≠ snapshotOf s.params s.fb → exec (.transmit snap) s = .next s)

/-- The wire symbols (30 R92 to R94): in mode WAIT each adds its own levels to the wire and changes nothing else;
outside it the line is the sequencer's alone (10 R34) and each is dropped whole. That a symbol runs as an
instruction, and when it is dropped, is the model's choice (assumption log 5, 11). -/
def Obligations.WireSymbolsEmitTheirLevels : Prop :=
  ∀ s : State,
    (s.mode = .wait →
      (∃ t : State, exec .sym0 s = .next t ∧ t = { s with wire := t.wire } ∧
        levels (wireTrace t) =
          levels (wireTrace s) ++ List.replicate s.params.t0h true ++ List.replicate s.params.t0l false) ∧
      (∃ t : State, exec .sym1 s = .next t ∧ t = { s with wire := t.wire } ∧
        levels (wireTrace t) =
          levels (wireTrace s) ++ List.replicate s.params.t1h true ++ List.replicate s.params.t1l false) ∧
      (∃ t : State, exec .latch s = .next t ∧ t = { s with wire := t.wire } ∧
        levels (wireTrace t) = levels (wireTrace s) ++ List.replicate s.params.tLatch false) ∧
      (∀ g r b : Byte, ∃ (t : State) (ps : List Pulse), exec (.pixelWord g r b) s = .next t ∧
        t = { s with wire := t.wire } ∧ exec (.encode [g, r, b]) s = .next { s with result := .pulses ps } ∧
        levels (wireTrace t) = levels (wireTrace s) ++ levels ps)) ∧
    (s.mode ≠ .wait →
      exec .sym0 s = .next s ∧ exec .sym1 s = .next s ∧ exec .latch s = .next s ∧
      ∀ g r b : Byte, exec (.pixelWord g r b) s = .next s)

/-- A frame is PIXEL_WORD for each pixel in index order and then LATCH (30 R91, R92): run as items of the script in
mode WAIT from an empty wire they leave on it exactly the wire trace a tick leaves of the snapshot. That symbols
run as items of a script is the model's choice (assumption log 1, 5, 11). -/
def Obligations.FrameIsItsPixelWordsThenLatch : Prop :=
  ∀ s : State, FbOk s → s.mode = .wait → s.wire = [] →
    s.script = (s.fb.map fun px => encode s.params (.pixelWord px.g px.r px.b)) ++ [encode s.params .latch] →
    ∃ t : State, Sys2Proof.core.run (s.params.ledCount + 1) s = .next t ∧
      t = { s with script := [], pins := {}, wire := t.wire } ∧
      wireTrace t = wireTraceOf s.params (snapshotOf s.params s.fb)

/-! ### The Frame Buffer -/

/-- SET_PIXEL (42 R171): the one pixel named, all three channels, and no other pixel and nothing else; out of range,
nothing at all. Between ticks; in the other modes `FrameBufferHasNoOtherWriter` says that nothing is written
(assumption log 11). -/
def Obligations.SetPixelWritesThatPixelOnly : Prop :=
  ∀ (s : State) (index : Nat) (r g b : Byte), FbOk s → s.mode = .wait →
    ∃ t : State, exec (.setPixel index r g b) s = .next t ∧ t = { s with fb := t.fb } ∧ t.fb.length = s.fb.length ∧
      ∀ j : Nat, j < s.params.ledCount → t.fb[j]? = if j = index then some ⟨r, g, b⟩ else s.fb[j]?

/-- SET_PIXEL with an index `>= LED_COUNT` leaves the whole state as it was, in every mode (42 R172). -/
def Obligations.SetPixelOutOfRangeChangesNothing : Prop :=
  ∀ (s : State) (index : Nat) (r g b : Byte), s.params.ledCount ≤ index → exec (.setPixel index r g b) s = .next s

/-- CLEAR and FILL (42 R173, R174) between ticks (assumption log 11): every pixel, in one step, and nothing else;
and, in every mode, `FILL(0,0,0) = CLEAR()`. -/
def Obligations.ClearAndFillPaintEveryPixel : Prop :=
  ∀ (s : State) (r g b : Byte), FbOk s →
    (s.mode = .wait →
      exec .clear s = .next { s with fb := List.replicate s.params.ledCount ⟨0, 0, 0⟩ } ∧
      exec (.fill r g b) s = .next { s with fb := List.replicate s.params.ledCount ⟨r, g, b⟩ }) ∧
    exec (.fill 0 0 0) s = exec .clear s

/-- SNAPSHOT (42 R176, 20 R64): FRAME_BYTES bytes, green, red, blue of each pixel in index order; the Frame Buffer is
unchanged. -/
def Obligations.SnapshotIsGreenRedBlueInIndexOrder : Prop :=
  ∀ s : State, FbOk s →
    ∃ bs : List Byte, exec .snapshot s = .next { s with result := .bytes bs } ∧ bs.length = 3 * s.params.ledCount ∧
      (s.params.ledCount = 14 → bs.length = 42) ∧
      ∀ j : Nat, j < s.params.ledCount →
        ∃ px : Pixel, s.fb[j]? = some px ∧
          bs[3 * j]? = some px.g ∧ bs[3 * j + 1]? = some px.r ∧ bs[3 * j + 2]? = some px.b

/-- The Frame Buffer and the Blink State have no other writers (10 R20, R21; 42 R170; 70 R309): a step that changes
one of them is RESET, or happens in mode WAIT and is SET_PIXEL, CLEAR, FILL, CTRL_UPDATE or an accepted TICK. So
nothing writes them while a transmission runs (20 R74, R76, R79) or in HALTED (60 R258): an operation issued alone
there leaves the whole state as it was (assumption log 11). -/
def Obligations.FrameBufferHasNoOtherWriter : Prop :=
  (∀ (i : Instr) (s t : State), exec i s = .next t →
    t.fb ≠ s.fb ∨ t.blink ≠ s.blink ∨ t.blinkStart ≠ s.blinkStart →
    i = .reset ∨
    (s.mode = .wait ∧
      ((∃ index r g b, i = .setPixel index r g b ∧ index < s.params.ledCount) ∨ i = .clear ∨
       (∃ r g b, i = .fill r g b) ∨ (∃ cur now, i = .ctrlUpdate cur now) ∨ ∃ sample now, i = .tick sample now))) ∧
  (∀ s : State, s.mode ≠ .wait →
    (∀ index r g b, exec (.setPixel index r g b) s = .next s) ∧ exec .clear s = .next s ∧
    (∀ r g b, exec (.fill r g b) s = .next s) ∧ (∀ cur now, exec (.ctrlUpdate cur now) s = .next s) ∧
    exec .tickEnd s = .next s)

/-! ### The Blink Controller -/

/-- The transition table of 43 R205, all seven rows, with the trigger of R194 and R195, the elapsed time of R198 and
the phase of R199 written out. The colours are the parameters COLOR_ON and COLOR_OFF (assumption log 14), and the
operation is issued between ticks (assumption log 11). -/
def Obligations.CtrlUpdateFollowsTheTransitionTable : Prop :=
  ∀ (s : State) (cur : Int) (now : Nat), FbOk s → s.mode = .wait → 1 ≤ s.params.blinkDuration →
    ∃ t : State, exec (.ctrlUpdate cur now) s = .next t ∧
      t = { s with blink := t.blink, blinkStart := t.blinkStart, fb := t.fb } ∧
      ∀ (ref : Int) (trigger inWindow : Prop) (painted : Pixel),
        ref = (if s.baselineValid then s.prevSample else cur) →
        (trigger ↔ s.params.threshold < (cur - ref).natAbs) →
        (inWindow ↔
          (((now : Int) - (s.blinkStart : Int)) % ((2 ^ s.params.timeW : Nat) : Int)) < (s.params.blinkDuration : Int)) →
        painted =
          (if now / s.params.halfPeriod % 2 = s.params.redPhase.val then s.params.colorOn else s.params.colorOff) →
        (s.blink = .idle → ¬ trigger →
          t.blink = .idle ∧ t.blinkStart = s.blinkStart ∧ t.fb = List.replicate s.params.ledCount s.params.colorOff) ∧
        (s.blink = .idle → trigger →
          t.blink = .blinking ∧ t.blinkStart = now ∧ t.fb = List.replicate s.params.ledCount painted) ∧
        (s.blink = .blinking → ¬ trigger → inWindow →
          t.blink = .blinking ∧ t.blinkStart = s.blinkStart ∧ t.fb = List.replicate s.params.ledCount painted) ∧
        (s.blink = .blinking → ¬ trigger → ¬ inWindow →
          t.blink = .idle ∧ t.blinkStart = s.blinkStart ∧ t.fb = List.replicate s.params.ledCount s.params.colorOff) ∧
        (s.blink = .blinking → trigger → s.params.retrigger = .restart →
          t.blink = .blinking ∧ t.blinkStart = now ∧ t.fb = List.replicate s.params.ledCount painted) ∧
        (s.blink = .blinking → trigger → s.params.retrigger = .ignore → inWindow →
          t.blink = .blinking ∧ t.blinkStart = s.blinkStart ∧ t.fb = List.replicate s.params.ledCount painted) ∧
        (s.blink = .blinking → trigger → s.params.retrigger = .ignore → ¬ inWindow →
          t.blink = .idle ∧ t.blinkStart = s.blinkStart ∧ t.fb = List.replicate s.params.ledCount s.params.colorOff)

/-- The baseline tick (43 R194): while no baseline has been taken no sample triggers, whatever it is. The colour is
the parameter COLOR_OFF (assumption log 14), and the operation is issued between ticks (assumption log 11). -/
def Obligations.BaselineTickNeverTriggers : Prop :=
  ∀ (s : State) (cur : Int) (now : Nat), FbOk s → s.mode = .wait → s.baselineValid = false → s.blink = .idle →
    exec (.ctrlUpdate cur now) s = .next { s with fb := List.replicate s.params.ledCount s.params.colorOff }

/-- The strict threshold (43 R195): a delta of exactly THRESHOLD does not trigger, one more does, in either
direction. The operation is issued between ticks (assumption log 11). -/
def Obligations.TriggerNeedsMoreThanTheThreshold : Prop :=
  ∀ (s : State) (cur : Int) (now : Nat), s.mode = .wait → s.baselineValid = true → s.blink = .idle →
    1 ≤ s.params.blinkDuration →
    (cur = s.prevSample + s.params.threshold ∨ cur = s.prevSample - s.params.threshold →
      ∃ t : State, exec (.ctrlUpdate cur now) s = .next t ∧ t.blink = .idle ∧ t.blinkStart = s.blinkStart) ∧
    (cur = s.prevSample + (s.params.threshold + 1) ∨ cur = s.prevSample - (s.params.threshold + 1) →
      ∃ t : State, exec (.ctrlUpdate cur now) s = .next t ∧ t.blink = .blinking ∧ t.blinkStart = now)

/-- The window is measured across a wrap of `now_ms` (43 R198, R200): `d` milliseconds after it was opened, `d`
below 2^TIME_W, a tick without a trigger keeps it open exactly if `d < BLINK_DURATION`, whether or not the time has
wrapped. The colour is the parameter COLOR_OFF (assumption log 14), and the operation is issued between ticks
(assumption log 11). -/
def Obligations.WindowIsMeasuredAcrossAWrap : Prop :=
  ∀ (s : State) (d : Nat), s.params.Wf → FbOk s → s.mode = .wait → s.params.TimeOk s.blinkStart → s.params.TimeOk d →
    s.blink = .blinking → s.baselineValid = true →
    ∃ t : State, exec (.ctrlUpdate s.prevSample ((s.blinkStart + d) % 2 ^ s.params.timeW)) s = .next t ∧
      (d < s.params.blinkDuration → t.blink = .blinking ∧ t.blinkStart = s.blinkStart) ∧
      (s.params.blinkDuration ≤ d → t.blink = .idle ∧ t.fb = List.replicate s.params.ledCount s.params.colorOff)

/-- No rule reads `blink_start` while IDLE (10 R24): two states that differ in it alone get the same Blink State and
the same colours, and the same window if one opens. -/
def Obligations.BlinkStartIsNotReadWhileIdle : Prop :=
  ∀ (s : State) (v now : Nat) (cur : Int), s.blink = .idle →
    ∃ t u : State, exec (.ctrlUpdate cur now) s = .next t ∧
      exec (.ctrlUpdate cur now) { s with blinkStart := v } = .next u ∧
      u = { t with blinkStart := u.blinkStart } ∧
      (t.blink = .blinking → u.blinkStart = t.blinkStart) ∧
      (t.blink = .idle → 1 ≤ s.params.blinkDuration → t.blinkStart = s.blinkStart ∧ u.blinkStart = v)

/-- `prev_sample` is read only once a baseline has been taken (10 R25, R26), and what the Frame Buffer held never
shows in what the controller paints (43 R201). The operation is issued between ticks (assumption log 11). -/
def Obligations.ControllerReadsNoStaleData : Prop :=
  ∀ (s : State) (cur : Int) (now : Nat) (prev : Int) (old : FrameBuffer), FbOk s → old.length = s.params.ledCount →
    s.mode = .wait →
    ∃ t : State, exec (.ctrlUpdate cur now) s = .next t ∧
      exec (.ctrlUpdate cur now) { s with fb := old } = .next t ∧
      (s.baselineValid = false →
        exec (.ctrlUpdate cur now) { s with prevSample := prev } = .next { t with prevSample := prev })

/-- Liveness (43 R207), over whole ticks carried out edge by edge: while no sample differs from the one before by
more than THRESHOLD and `now_ms` neither wraps nor goes back behind the start of the window, every tick before the
window's end leaves it open, the first tick at or after its end closes it, and it stays closed; each tick ends in
mode WAIT with its own frame sent. The record is the model's (assumption log 4) and the colour the parameter
COLOR_OFF (assumption log 14). -/
def Obligations.WindowClosesAtTheFirstTickAfterIt : Prop :=
  ∀ (s : State) (before after : List (Int × Nat)) (x : Int) (now : Nat),
    s.params.Wf → FbOk s → s.mode = .wait → s.baselineValid = true → s.blink = .blinking →
    List.IsChain (fun a b : Int => (b - a).natAbs ≤ s.params.threshold)
      (s.prevSample :: (before ++ (x, now) :: after).map Prod.fst) →
    (∀ q ∈ before, s.params.TimeOk q.2 ∧ s.blinkStart ≤ q.2 ∧ q.2 < s.blinkStart + s.params.blinkDuration) →
    s.params.TimeOk now → s.blinkStart + s.params.blinkDuration ≤ now →
    ∃ t u : State,
      t = runProgram (before.map fun q => .tick q.1 q.2 none) s ∧
      t.mode = .wait ∧ t.blink = .blinking ∧ t.blinkStart = s.blinkStart ∧
      u = runProgram ((before ++ (x, now) :: after).map fun q => .tick q.1 q.2 none) s ∧
      u.mode = .wait ∧ u.blink = .idle ∧ u.fb = List.replicate s.params.ledCount s.params.colorOff ∧
      wireTrace u = wireTraceOf s.params (snapshotOf s.params u.fb)

/-- TICK_END has the effect of the pseudocode of 43 R204. The rule has it at the completion edge only, which
`LatchCountsDownThenCompletesTheTick` states; that it acts alone, and in mode WAIT, is the model's reading, DEDUCED:
assumption log 11. -/
def Obligations.TickEndTakesTheSample : Prop :=
  ∀ s : State, s.mode = .wait → exec .tickEnd s = .next { s with prevSample := s.curSample, baselineValid := true }

/-! ### Faults and halting -/

/-- The effect of `raise Fatal(code)` (60 R254), for the three codes, in every mode but HALTED. -/
def Obligations.HaltRaisesFatal : Prop :=
  ∀ (s : State) (code : FaultCode), code ≠ .none → s.mode ≠ .halted →
    exec (.halt code) s = .next
      { s with mode := .halted, faultCode := code, seq := ⟨.idle, 0, 7, 0⟩, tickDone := false, sensorWarn := false }

/-- HALT in mode HALTED raises nothing further, so nothing changes (60 R259; DEDUCED, assumption log 9); HALT with
code 00, which is never raised (60 R251), is refused. -/
def Obligations.HaltNeverNestsAndNeedsACause : Prop :=
  ∀ (s : State) (code : FaultCode),
    (code ≠ .none → s.mode = .halted → exec (.halt code) s = .next s) ∧
    exec (.halt .none) s = .refused .haltWithoutCause

/-- UNASSIGNED (30 R102): operation ids 1100 to 1111 mean nothing, so the model refuses them. That the syntax has them
at all is the model's choice (assumption log 10). -/
def Obligations.UnassignedIdsAreRefused : Prop :=
  ∀ (s : State) (x : BitVec 2), exec (.unassigned x) s = .refused .unassignedOperation

/-- Mode HALTED (60 R258): the outputs, and no input but `rst` has any effect, whatever the pins are. -/
def Obligations.HaltedBlockIsFrozen : Prop :=
  ∀ (s : State) (i : Instr), Inv s → s.mode = .halted → isCommandWithoutReset i = true →
    exec i s = .next s ∧ dout s = false ∧ busy s = false ∧ halted s = true ∧ s.faultCode ≠ .none

/-- Only reset leaves HALTED, the first cause stays (60 R259) and all state is frozen there (60 R258), over every
instruction: the strobes, which are 0 there by the invariant, and what a value operation returns to its caller are all
that may differ. -/
def Obligations.OnlyResetLeavesHalted : Prop :=
  ∀ (i : Instr) (s t : State), s.mode = .halted → exec i s = .next t → i ≠ .reset →
    t = { s with tickDone := t.tickDone, sensorWarn := t.sensorWarn, result := t.result } ∧
    (t.tickDone = true → s.tickDone = true) ∧ (t.sensorWarn = true → s.sensorWarn = true)

/-! ### Whole-machine rules -/

/-- A transmission starts only from a tick accepted in mode WAIT, so none overlaps another (41 R143). -/
def Obligations.OnlyAnAcceptedTickStartsTransmitting : Prop :=
  ∀ (i : Instr) (s t : State), exec i s = .next t → s.mode ≠ .tx → t.mode = .tx →
    s.mode = .wait ∧ ∃ (sample : Int) (now : Nat), i = .tick sample now

/-- No parameter can change while the block runs (00 R7, 10 R35), over every instruction. That they stand in State is
the model's choice (assumption log 2). -/
def Obligations.ParametersNeverChange : Prop :=
  ∀ (i : Instr) (s t : State), exec i s = .next t → t.params = s.params

/-- The invariant holds right after reset. It rests on the parameters the model's reset state is built with
(assumption log 2, 3). -/
def Obligations.ResetStateMeetsTheInvariant : Prop := Inv State.reset

/-- Every step keeps the invariant: the parameters' constraints, LED_COUNT pixels, the sequencer at rest outside
mode TX and on its way inside it, `fault_code` 0 exactly outside HALTED, the strobes where they may be, the
registers within their widths. -/
def Obligations.EveryStepKeepsTheInvariant : Prop :=
  ∀ s t : State, Inv s → step s = .next t → Inv t

/-- Every value of the command vector completes in every state: nothing in it is illegal (30 R99, R102), no command
stops the machine, and none touches what the host has yet to present. -/
def Obligations.CommandsAlwaysComplete : Prop :=
  ∀ (s : State) (x : Stimulus) (rest : List Stimulus) (cmd : BitVec 3),
    s.script = x :: rest → x.word = .command cmd →
    ∃ t : State, step s = .next t ∧ t.script = rest ∧ t.pins = x.pins ∧ t.params = s.params ∧ t.result = s.result

/-- The line is low outside mode TX (10 R34, 41 R145): after every step from a state that meets the invariant. -/
def Obligations.LineIsLowOutsideTransmission : Prop :=
  ∀ s t : State, Inv s → step s = .next t → t.mode ≠ .tx → dout t = false
end

