-- ==== Sys2Proof/Laws/Wire.lean ====
section
/-!
SUPPORT. Laws of pulse trains and of the wire trace: levels, lengths, runs, prefixes, and what `emit` adds.
-/

namespace Sys2Proof.Machine

/-! ### Levels and lengths -/

@[simp] theorem levels_nil : levels [] = [] := rfl

@[simp] theorem levels_cons (q : Pulse) (t : List Pulse) :
    levels (q :: t) = List.replicate q.dur q.level ++ levels t := by simp [levels]

@[simp] theorem levels_append (t u : List Pulse) : levels (t ++ u) = levels t ++ levels u := by simp [levels]

@[simp] theorem ticksOf_nil : ticksOf [] = 0 := rfl

@[simp] theorem ticksOf_cons (q : Pulse) (t : List Pulse) : ticksOf (q :: t) = q.dur + ticksOf t := by simp [ticksOf]

@[simp] theorem ticksOf_append (t u : List Pulse) : ticksOf (t ++ u) = ticksOf t + ticksOf u := by simp [ticksOf]

@[simp] theorem ticksOf_reverse (t : List Pulse) : ticksOf t.reverse = ticksOf t := by
  induction t with
  | nil => rfl
  | cons q t ih => simp [ih, Nat.add_comm]

@[simp] theorem length_levels (t : List Pulse) : (levels t).length = ticksOf t := by
  induction t with
  | nil => rfl
  | cons q t ih => simp [ih]

/-! ### Emitting -/

@[simp] theorem emitAll_nil (w : List Pulse) : emitAll w [] = w := rfl

@[simp] theorem emitAll_cons (w : List Pulse) (q : Pulse) (t : List Pulse) :
    emitAll w (q :: t) = emitAll (emit w q) t := rfl

theorem emitAll_append (w t u : List Pulse) : emitAll w (t ++ u) = emitAll (emitAll w t) u := by
  simp [emitAll, List.foldl_append]

/-- An emitted pulse adds its own levels at the end of the trace. -/
theorem levels_emit (w : List Pulse) (q : Pulse) :
    levels (emit w q).reverse = levels w.reverse ++ List.replicate q.dur q.level := by
  unfold emit
  split
  · simp
  · next last older =>
    split
    · next h => simp [h]
    · simp

/-- An emitted train adds its own levels at the end of the trace. -/
theorem levels_emitAll (w t : List Pulse) : levels (emitAll w t).reverse = levels w.reverse ++ levels t := by
  induction t generalizing w with
  | nil => simp
  | cons q t ih => simp [ih, levels_emit]

/-! ### Runs -/

@[simp] theorem runs_nil : runs [] = [] := rfl

theorem runs_cons (q : Pulse) (t : List Pulse) :
    runs (q :: t) =
      match runs t with
      | [] => [q]
      | next :: more => if q.level = next.level then ⟨q.level, q.dur + next.dur⟩ :: more else q :: next :: more := rfl

/-- `Levels(Runs(t)) = Levels(t)` (41 R147). -/
@[simp] theorem levels_runs (t : List Pulse) : levels (runs t) = levels t := by
  induction t with
  | nil => rfl
  | cons q t ih =>
    rw [runs_cons, levels_cons, ← ih]
    split
    · next h => simp [h]
    · next next more h =>
      rw [h]
      split
      · next hl => simp only [levels_cons, hl, ← List.append_assoc, List.replicate_append_replicate]
      · simp

@[simp] theorem ticksOf_runs (t : List Pulse) : ticksOf (runs t) = ticksOf t := by
  rw [← length_levels, levels_runs, length_levels]

/-- Two neighbouring pulses of one level are one run, wherever they stand. -/
theorem runs_merge (t u : List Pulse) (l : Bool) (a b : Nat) :
    runs (t ++ ⟨l, a⟩ :: ⟨l, b⟩ :: u) = runs (t ++ ⟨l, a + b⟩ :: u) := by
  induction t with
  | nil =>
    simp only [List.nil_append, runs_cons]
    cases runs u with
    | nil => simp
    | cons next more =>
      by_cases h : l = next.level <;> simp [h, Nat.add_assoc]
  | cons q t ih => simp only [List.cons_append, runs_cons, ih]

/-- The record of a trace has the runs of what was emitted. -/
theorem runs_emitAll (w t : List Pulse) : runs (emitAll w t).reverse = runs (w.reverse ++ t) := by
  induction t generalizing w with
  | nil => simp
  | cons q t ih =>
    rw [emitAll_cons, ih]
    unfold emit
    split
    · simp
    · next last older =>
      split
      · next h =>
        obtain ⟨l, a⟩ := last
        obtain ⟨l', b⟩ := q
        simp only at h
        subst h
        simpa using (runs_merge older.reverse t l a b).symm
      · simp

/-- No two neighbouring runs have one level. -/
abbrev Alternating (t : List Pulse) : Prop := List.IsChain (fun a b : Pulse => a.level ≠ b.level) t

theorem alternating_emit {w : List Pulse} (h : Alternating w) (q : Pulse) : Alternating (emit w q) := by
  unfold emit
  split
  · exact List.isChain_singleton q
  · next last older =>
    split
    · next hl =>
      cases older with
      | nil => exact List.isChain_singleton _
      | cons o os =>
        rw [Alternating, List.isChain_cons_cons] at h ⊢
        exact ⟨by simpa [hl] using h.1, h.2⟩
    · next hl => exact List.isChain_cons_cons.2 ⟨fun he => hl he.symm, h⟩

theorem alternating_emitAll {w : List Pulse} (h : Alternating w) (t : List Pulse) : Alternating (emitAll w t) := by
  induction t generalizing w with
  | nil => exact h
  | cons q t ih => exact ih (alternating_emit h q)

/-- A train that alternates is its own list of runs. -/
theorem runs_of_alternating {t : List Pulse} (h : Alternating t) : runs t = t := by
  induction t with
  | nil => rfl
  | cons q t ih =>
    rw [runs_cons, ih (List.IsChain.of_cons h)]
    cases t with
    | nil => rfl
    | cons r t => simp [(List.isChain_cons_cons.1 h).1]

/-- What is emitted from an empty record is exactly `Runs` of the train, newest first. -/
theorem reverse_emitAll_nil (t : List Pulse) : (emitAll [] t).reverse = runs t := by
  have h : Alternating (emitAll [] t).reverse := by
    have := alternating_emitAll (w := []) List.isChain_nil t
    rw [Alternating, List.isChain_reverse]
    exact this.imp fun _ _ hne he => hne he.symm
  rw [← runs_of_alternating h, runs_emitAll]
  rfl

/-! ### Prefixes -/

/-- A cut train has the first levels of the whole (41 R157). -/
@[simp] theorem levels_takeTicks (n : Nat) (t : List Pulse) : levels (takeTicks n t) = (levels t).take n := by
  induction t generalizing n with
  | nil => simp [takeTicks]
  | cons q t ih =>
    unfold takeTicks
    split
    · next h => simp [h]
    · split
      · next h => simp [List.take_append, Nat.sub_eq_zero_of_le h, Nat.min_eq_left h]
      · next h => simp [ih, List.take_append, Nat.min_eq_right (Nat.le_of_not_le h)]

end Sys2Proof.Machine
end

