-- ==== Sys2Proof/Laws/State.lean ====
section
/-!
SUPPORT. What each named update of the state leaves in each field: one lemma a field, so that no later proof unfolds a
record update.
-/

namespace Sys2Proof.Machine

/-! ### clearStrobes -/

@[simp] theorem clearStrobes_params (s : State) : (clearStrobes s).params = s.params := rfl

@[simp] theorem clearStrobes_fb (s : State) : (clearStrobes s).fb = s.fb := rfl

@[simp] theorem clearStrobes_blink (s : State) : (clearStrobes s).blink = s.blink := rfl

@[simp] theorem clearStrobes_blinkStart (s : State) : (clearStrobes s).blinkStart = s.blinkStart := rfl

@[simp] theorem clearStrobes_prevSample (s : State) : (clearStrobes s).prevSample = s.prevSample := rfl

@[simp] theorem clearStrobes_baselineValid (s : State) : (clearStrobes s).baselineValid = s.baselineValid := rfl

@[simp] theorem clearStrobes_curSample (s : State) : (clearStrobes s).curSample = s.curSample := rfl

@[simp] theorem clearStrobes_mode (s : State) : (clearStrobes s).mode = s.mode := rfl

@[simp] theorem clearStrobes_faultCode (s : State) : (clearStrobes s).faultCode = s.faultCode := rfl

@[simp] theorem clearStrobes_seq (s : State) : (clearStrobes s).seq = s.seq := rfl

@[simp] theorem clearStrobes_tickDone (s : State) : (clearStrobes s).tickDone = false := rfl

@[simp] theorem clearStrobes_sensorWarn (s : State) : (clearStrobes s).sensorWarn = false := rfl

@[simp] theorem clearStrobes_pins (s : State) : (clearStrobes s).pins = s.pins := rfl

@[simp] theorem clearStrobes_script (s : State) : (clearStrobes s).script = s.script := rfl

@[simp] theorem clearStrobes_wire (s : State) : (clearStrobes s).wire = s.wire := rfl

@[simp] theorem clearStrobes_result (s : State) : (clearStrobes s).result = s.result := rfl

/-! ### resetBlock -/

@[simp] theorem resetBlock_params (s : State) : (resetBlock s).params = s.params := rfl

@[simp] theorem resetBlock_fb (s : State) : (resetBlock s).fb = List.replicate s.params.ledCount Pixel.off := rfl

@[simp] theorem resetBlock_blink (s : State) : (resetBlock s).blink = .idle := rfl

@[simp] theorem resetBlock_blinkStart (s : State) : (resetBlock s).blinkStart = 0 := rfl

@[simp] theorem resetBlock_prevSample (s : State) : (resetBlock s).prevSample = 0 := rfl

@[simp] theorem resetBlock_baselineValid (s : State) : (resetBlock s).baselineValid = false := rfl

@[simp] theorem resetBlock_curSample (s : State) : (resetBlock s).curSample = 0 := rfl

@[simp] theorem resetBlock_mode (s : State) : (resetBlock s).mode = .init := rfl

@[simp] theorem resetBlock_faultCode (s : State) : (resetBlock s).faultCode = .none := rfl

@[simp] theorem resetBlock_seq (s : State) : (resetBlock s).seq = Seq.rest := rfl

@[simp] theorem resetBlock_tickDone (s : State) : (resetBlock s).tickDone = false := rfl

@[simp] theorem resetBlock_sensorWarn (s : State) : (resetBlock s).sensorWarn = false := rfl

@[simp] theorem resetBlock_pins (s : State) : (resetBlock s).pins = s.pins := rfl

@[simp] theorem resetBlock_script (s : State) : (resetBlock s).script = s.script := rfl

@[simp] theorem resetBlock_wire (s : State) : (resetBlock s).wire = s.wire := rfl

@[simp] theorem resetBlock_result (s : State) : (resetBlock s).result = s.result := rfl

/-! ### tickEnd -/

@[simp] theorem tickEnd_params (s : State) : (tickEnd s).params = s.params := rfl

@[simp] theorem tickEnd_fb (s : State) : (tickEnd s).fb = s.fb := rfl

@[simp] theorem tickEnd_blink (s : State) : (tickEnd s).blink = s.blink := rfl

@[simp] theorem tickEnd_blinkStart (s : State) : (tickEnd s).blinkStart = s.blinkStart := rfl

@[simp] theorem tickEnd_prevSample (s : State) : (tickEnd s).prevSample = s.curSample := rfl

@[simp] theorem tickEnd_baselineValid (s : State) : (tickEnd s).baselineValid = true := rfl

@[simp] theorem tickEnd_curSample (s : State) : (tickEnd s).curSample = s.curSample := rfl

@[simp] theorem tickEnd_mode (s : State) : (tickEnd s).mode = s.mode := rfl

@[simp] theorem tickEnd_faultCode (s : State) : (tickEnd s).faultCode = s.faultCode := rfl

@[simp] theorem tickEnd_seq (s : State) : (tickEnd s).seq = s.seq := rfl

@[simp] theorem tickEnd_tickDone (s : State) : (tickEnd s).tickDone = s.tickDone := rfl

@[simp] theorem tickEnd_sensorWarn (s : State) : (tickEnd s).sensorWarn = s.sensorWarn := rfl

@[simp] theorem tickEnd_pins (s : State) : (tickEnd s).pins = s.pins := rfl

@[simp] theorem tickEnd_script (s : State) : (tickEnd s).script = s.script := rfl

@[simp] theorem tickEnd_wire (s : State) : (tickEnd s).wire = s.wire := rfl

@[simp] theorem tickEnd_result (s : State) : (tickEnd s).result = s.result := rfl

/-! ### completeTick -/

@[simp] theorem completeTick_params (s : State) : (completeTick s).params = s.params := rfl

@[simp] theorem completeTick_fb (s : State) : (completeTick s).fb = s.fb := rfl

@[simp] theorem completeTick_blink (s : State) : (completeTick s).blink = s.blink := rfl

@[simp] theorem completeTick_blinkStart (s : State) : (completeTick s).blinkStart = s.blinkStart := rfl

@[simp] theorem completeTick_prevSample (s : State) : (completeTick s).prevSample = s.curSample := rfl

@[simp] theorem completeTick_baselineValid (s : State) : (completeTick s).baselineValid = true := rfl

@[simp] theorem completeTick_curSample (s : State) : (completeTick s).curSample = s.curSample := rfl

@[simp] theorem completeTick_mode (s : State) : (completeTick s).mode = .wait := rfl

@[simp] theorem completeTick_faultCode (s : State) : (completeTick s).faultCode = s.faultCode := rfl

@[simp] theorem completeTick_seq (s : State) : (completeTick s).seq = Seq.rest := rfl

@[simp] theorem completeTick_tickDone (s : State) : (completeTick s).tickDone = true := rfl

@[simp] theorem completeTick_sensorWarn (s : State) : (completeTick s).sensorWarn = s.sensorWarn := rfl

@[simp] theorem completeTick_pins (s : State) : (completeTick s).pins = s.pins := rfl

@[simp] theorem completeTick_script (s : State) : (completeTick s).script = s.script := rfl

@[simp] theorem completeTick_wire (s : State) : (completeTick s).wire = s.wire := rfl

@[simp] theorem completeTick_result (s : State) : (completeTick s).result = s.result := rfl

/-! ### placeNext -/

@[simp] theorem placeNext_params (x : Stimulus) (s : State) : (placeNext x s).params = s.params := rfl

@[simp] theorem placeNext_fb (x : Stimulus) (s : State) : (placeNext x s).fb = s.fb := rfl

@[simp] theorem placeNext_blink (x : Stimulus) (s : State) : (placeNext x s).blink = s.blink := rfl

@[simp] theorem placeNext_blinkStart (x : Stimulus) (s : State) : (placeNext x s).blinkStart = s.blinkStart := rfl

@[simp] theorem placeNext_prevSample (x : Stimulus) (s : State) : (placeNext x s).prevSample = s.prevSample := rfl

@[simp] theorem placeNext_baselineValid (x : Stimulus) (s : State) : (placeNext x s).baselineValid = s.baselineValid := rfl

@[simp] theorem placeNext_curSample (x : Stimulus) (s : State) : (placeNext x s).curSample = s.curSample := rfl

@[simp] theorem placeNext_mode (x : Stimulus) (s : State) : (placeNext x s).mode = s.mode := rfl

@[simp] theorem placeNext_faultCode (x : Stimulus) (s : State) : (placeNext x s).faultCode = s.faultCode := rfl

@[simp] theorem placeNext_seq (x : Stimulus) (s : State) : (placeNext x s).seq = s.seq := rfl

@[simp] theorem placeNext_tickDone (x : Stimulus) (s : State) : (placeNext x s).tickDone = s.tickDone := rfl

@[simp] theorem placeNext_sensorWarn (x : Stimulus) (s : State) : (placeNext x s).sensorWarn = s.sensorWarn := rfl

@[simp] theorem placeNext_pins (x : Stimulus) (s : State) : (placeNext x s).pins = s.pins := rfl

@[simp] theorem placeNext_script (x : Stimulus) (s : State) : (placeNext x s).script = x :: s.script := rfl

@[simp] theorem placeNext_wire (x : Stimulus) (s : State) : (placeNext x s).wire = s.wire := rfl

@[simp] theorem placeNext_result (x : Stimulus) (s : State) : (placeNext x s).result = s.result := rfl

/-! ### onWire -/

@[simp] theorem onWire_params (train : List Pulse) (s : State) : (onWire train s).params = s.params := rfl

@[simp] theorem onWire_fb (train : List Pulse) (s : State) : (onWire train s).fb = s.fb := rfl

@[simp] theorem onWire_blink (train : List Pulse) (s : State) : (onWire train s).blink = s.blink := rfl

@[simp] theorem onWire_blinkStart (train : List Pulse) (s : State) : (onWire train s).blinkStart = s.blinkStart := rfl

@[simp] theorem onWire_prevSample (train : List Pulse) (s : State) : (onWire train s).prevSample = s.prevSample := rfl

@[simp] theorem onWire_baselineValid (train : List Pulse) (s : State) : (onWire train s).baselineValid = s.baselineValid := rfl

@[simp] theorem onWire_curSample (train : List Pulse) (s : State) : (onWire train s).curSample = s.curSample := rfl

@[simp] theorem onWire_mode (train : List Pulse) (s : State) : (onWire train s).mode = s.mode := rfl

@[simp] theorem onWire_faultCode (train : List Pulse) (s : State) : (onWire train s).faultCode = s.faultCode := rfl

@[simp] theorem onWire_seq (train : List Pulse) (s : State) : (onWire train s).seq = s.seq := rfl

@[simp] theorem onWire_tickDone (train : List Pulse) (s : State) : (onWire train s).tickDone = s.tickDone := rfl

@[simp] theorem onWire_sensorWarn (train : List Pulse) (s : State) : (onWire train s).sensorWarn = s.sensorWarn := rfl

@[simp] theorem onWire_pins (train : List Pulse) (s : State) : (onWire train s).pins = s.pins := rfl

@[simp] theorem onWire_script (train : List Pulse) (s : State) : (onWire train s).script = s.script := rfl

@[simp] theorem onWire_wire (train : List Pulse) (s : State) : (onWire train s).wire = emitAll s.wire train := rfl

@[simp] theorem onWire_result (train : List Pulse) (s : State) : (onWire train s).result = s.result := rfl

/-! ### recordTick -/

@[simp] theorem recordTick_params (s : State) : (recordTick s).params = s.params := by
  unfold recordTick
  split
  · split <;> rfl
  · rfl

@[simp] theorem recordTick_fb (s : State) : (recordTick s).fb = s.fb := by
  unfold recordTick
  split
  · split <;> rfl
  · rfl

@[simp] theorem recordTick_blink (s : State) : (recordTick s).blink = s.blink := by
  unfold recordTick
  split
  · split <;> rfl
  · rfl

@[simp] theorem recordTick_blinkStart (s : State) : (recordTick s).blinkStart = s.blinkStart := by
  unfold recordTick
  split
  · split <;> rfl
  · rfl

@[simp] theorem recordTick_prevSample (s : State) : (recordTick s).prevSample = s.prevSample := by
  unfold recordTick
  split
  · split <;> rfl
  · rfl

@[simp] theorem recordTick_baselineValid (s : State) : (recordTick s).baselineValid = s.baselineValid := by
  unfold recordTick
  split
  · split <;> rfl
  · rfl

@[simp] theorem recordTick_curSample (s : State) : (recordTick s).curSample = s.curSample := by
  unfold recordTick
  split
  · split <;> rfl
  · rfl

@[simp] theorem recordTick_mode (s : State) : (recordTick s).mode = s.mode := by
  unfold recordTick
  split
  · split <;> rfl
  · rfl

@[simp] theorem recordTick_faultCode (s : State) : (recordTick s).faultCode = s.faultCode := by
  unfold recordTick
  split
  · split <;> rfl
  · rfl

@[simp] theorem recordTick_seq (s : State) : (recordTick s).seq = s.seq := by
  unfold recordTick
  split
  · split <;> rfl
  · rfl

@[simp] theorem recordTick_tickDone (s : State) : (recordTick s).tickDone = s.tickDone := by
  unfold recordTick
  split
  · split <;> rfl
  · rfl

@[simp] theorem recordTick_sensorWarn (s : State) : (recordTick s).sensorWarn = s.sensorWarn := by
  unfold recordTick
  split
  · split <;> rfl
  · rfl

@[simp] theorem recordTick_pins (s : State) : (recordTick s).pins = s.pins := by
  unfold recordTick
  split
  · split <;> rfl
  · rfl

@[simp] theorem recordTick_script (s : State) : (recordTick s).script = s.script := by
  unfold recordTick
  split
  · split <;> rfl
  · rfl

@[simp] theorem recordTick_result (s : State) : (recordTick s).result = s.result := by
  unfold recordTick
  split
  · split <;> rfl
  · rfl

/-! ### raiseFatal -/

@[simp] theorem raiseFatal_params (c : FaultCode) (s : State) : (raiseFatal c s).params = s.params := by
  unfold raiseFatal
  split <;> rfl

@[simp] theorem raiseFatal_fb (c : FaultCode) (s : State) : (raiseFatal c s).fb = s.fb := by
  unfold raiseFatal
  split <;> rfl

@[simp] theorem raiseFatal_blink (c : FaultCode) (s : State) : (raiseFatal c s).blink = s.blink := by
  unfold raiseFatal
  split <;> rfl

@[simp] theorem raiseFatal_blinkStart (c : FaultCode) (s : State) : (raiseFatal c s).blinkStart = s.blinkStart := by
  unfold raiseFatal
  split <;> rfl

@[simp] theorem raiseFatal_prevSample (c : FaultCode) (s : State) : (raiseFatal c s).prevSample = s.prevSample := by
  unfold raiseFatal
  split <;> rfl

@[simp] theorem raiseFatal_baselineValid (c : FaultCode) (s : State) : (raiseFatal c s).baselineValid = s.baselineValid := by
  unfold raiseFatal
  split <;> rfl

@[simp] theorem raiseFatal_curSample (c : FaultCode) (s : State) : (raiseFatal c s).curSample = s.curSample := by
  unfold raiseFatal
  split <;> rfl

@[simp] theorem raiseFatal_mode (c : FaultCode) (s : State) : (raiseFatal c s).mode = .halted := by
  unfold raiseFatal
  split
  · assumption
  · rfl

@[simp] theorem raiseFatal_pins (c : FaultCode) (s : State) : (raiseFatal c s).pins = s.pins := by
  unfold raiseFatal
  split <;> rfl

@[simp] theorem raiseFatal_script (c : FaultCode) (s : State) : (raiseFatal c s).script = s.script := by
  unfold raiseFatal
  split <;> rfl

@[simp] theorem raiseFatal_wire (c : FaultCode) (s : State) : (raiseFatal c s).wire = s.wire := by
  unfold raiseFatal
  split <;> rfl

@[simp] theorem raiseFatal_result (c : FaultCode) (s : State) : (raiseFatal c s).result = s.result := by
  unfold raiseFatal
  split <;> rfl

/-! ### windowUpdate -/

@[simp] theorem windowUpdate_params (now : Nat) (s : State) : (windowUpdate now s).params = s.params := by
  unfold windowUpdate
  split
  · split <;> rfl
  · rfl

@[simp] theorem windowUpdate_blinkStart (now : Nat) (s : State) : (windowUpdate now s).blinkStart = s.blinkStart := by
  unfold windowUpdate
  split
  · split <;> rfl
  · rfl

@[simp] theorem windowUpdate_prevSample (now : Nat) (s : State) : (windowUpdate now s).prevSample = s.prevSample := by
  unfold windowUpdate
  split
  · split <;> rfl
  · rfl

@[simp] theorem windowUpdate_baselineValid (now : Nat) (s : State) : (windowUpdate now s).baselineValid = s.baselineValid := by
  unfold windowUpdate
  split
  · split <;> rfl
  · rfl

@[simp] theorem windowUpdate_curSample (now : Nat) (s : State) : (windowUpdate now s).curSample = s.curSample := by
  unfold windowUpdate
  split
  · split <;> rfl
  · rfl

@[simp] theorem windowUpdate_mode (now : Nat) (s : State) : (windowUpdate now s).mode = s.mode := by
  unfold windowUpdate
  split
  · split <;> rfl
  · rfl

@[simp] theorem windowUpdate_faultCode (now : Nat) (s : State) : (windowUpdate now s).faultCode = s.faultCode := by
  unfold windowUpdate
  split
  · split <;> rfl
  · rfl

@[simp] theorem windowUpdate_seq (now : Nat) (s : State) : (windowUpdate now s).seq = s.seq := by
  unfold windowUpdate
  split
  · split <;> rfl
  · rfl

@[simp] theorem windowUpdate_tickDone (now : Nat) (s : State) : (windowUpdate now s).tickDone = s.tickDone := by
  unfold windowUpdate
  split
  · split <;> rfl
  · rfl

@[simp] theorem windowUpdate_sensorWarn (now : Nat) (s : State) : (windowUpdate now s).sensorWarn = s.sensorWarn := by
  unfold windowUpdate
  split
  · split <;> rfl
  · rfl

@[simp] theorem windowUpdate_pins (now : Nat) (s : State) : (windowUpdate now s).pins = s.pins := by
  unfold windowUpdate
  split
  · split <;> rfl
  · rfl

@[simp] theorem windowUpdate_script (now : Nat) (s : State) : (windowUpdate now s).script = s.script := by
  unfold windowUpdate
  split
  · split <;> rfl
  · rfl

@[simp] theorem windowUpdate_wire (now : Nat) (s : State) : (windowUpdate now s).wire = s.wire := by
  unfold windowUpdate
  split
  · split <;> rfl
  · rfl

@[simp] theorem windowUpdate_result (now : Nat) (s : State) : (windowUpdate now s).result = s.result := by
  unfold windowUpdate
  split
  · split <;> rfl
  · rfl

/-! ### ctrlUpdate -/

@[simp] theorem ctrlUpdate_params (cur : Int) (now : Nat) (s : State) : (ctrlUpdate cur now s).params = s.params := by
  unfold ctrlUpdate
  split <;> simp

@[simp] theorem ctrlUpdate_prevSample (cur : Int) (now : Nat) (s : State) : (ctrlUpdate cur now s).prevSample = s.prevSample := by
  unfold ctrlUpdate
  split <;> simp

@[simp] theorem ctrlUpdate_baselineValid (cur : Int) (now : Nat) (s : State) : (ctrlUpdate cur now s).baselineValid = s.baselineValid := by
  unfold ctrlUpdate
  split <;> simp

@[simp] theorem ctrlUpdate_curSample (cur : Int) (now : Nat) (s : State) : (ctrlUpdate cur now s).curSample = s.curSample := by
  unfold ctrlUpdate
  split <;> simp

@[simp] theorem ctrlUpdate_mode (cur : Int) (now : Nat) (s : State) : (ctrlUpdate cur now s).mode = s.mode := by
  unfold ctrlUpdate
  split <;> simp

@[simp] theorem ctrlUpdate_faultCode (cur : Int) (now : Nat) (s : State) : (ctrlUpdate cur now s).faultCode = s.faultCode := by
  unfold ctrlUpdate
  split <;> simp

@[simp] theorem ctrlUpdate_seq (cur : Int) (now : Nat) (s : State) : (ctrlUpdate cur now s).seq = s.seq := by
  unfold ctrlUpdate
  split <;> simp

@[simp] theorem ctrlUpdate_tickDone (cur : Int) (now : Nat) (s : State) : (ctrlUpdate cur now s).tickDone = s.tickDone := by
  unfold ctrlUpdate
  split <;> simp

@[simp] theorem ctrlUpdate_sensorWarn (cur : Int) (now : Nat) (s : State) : (ctrlUpdate cur now s).sensorWarn = s.sensorWarn := by
  unfold ctrlUpdate
  split <;> simp

@[simp] theorem ctrlUpdate_pins (cur : Int) (now : Nat) (s : State) : (ctrlUpdate cur now s).pins = s.pins := by
  unfold ctrlUpdate
  split <;> simp

@[simp] theorem ctrlUpdate_script (cur : Int) (now : Nat) (s : State) : (ctrlUpdate cur now s).script = s.script := by
  unfold ctrlUpdate
  split <;> simp

@[simp] theorem ctrlUpdate_wire (cur : Int) (now : Nat) (s : State) : (ctrlUpdate cur now s).wire = s.wire := by
  unfold ctrlUpdate
  split <;> simp

@[simp] theorem ctrlUpdate_result (cur : Int) (now : Nat) (s : State) : (ctrlUpdate cur now s).result = s.result := by
  unfold ctrlUpdate
  split <;> simp

/-! ### seqEdge -/

@[simp] theorem seqEdge_params (s : State) : (seqEdge s).params = s.params := by
  unfold seqEdge
  repeat' split
  all_goals rfl

@[simp] theorem seqEdge_fb (s : State) : (seqEdge s).fb = s.fb := by
  unfold seqEdge
  repeat' split
  all_goals rfl

@[simp] theorem seqEdge_blink (s : State) : (seqEdge s).blink = s.blink := by
  unfold seqEdge
  repeat' split
  all_goals rfl

@[simp] theorem seqEdge_blinkStart (s : State) : (seqEdge s).blinkStart = s.blinkStart := by
  unfold seqEdge
  repeat' split
  all_goals rfl

@[simp] theorem seqEdge_curSample (s : State) : (seqEdge s).curSample = s.curSample := by
  unfold seqEdge
  repeat' split
  all_goals rfl

@[simp] theorem seqEdge_faultCode (s : State) : (seqEdge s).faultCode = s.faultCode := by
  unfold seqEdge
  repeat' split
  all_goals rfl

@[simp] theorem seqEdge_sensorWarn (s : State) : (seqEdge s).sensorWarn = s.sensorWarn := by
  unfold seqEdge
  repeat' split
  all_goals rfl

@[simp] theorem seqEdge_pins (s : State) : (seqEdge s).pins = s.pins := by
  unfold seqEdge
  repeat' split
  all_goals rfl

@[simp] theorem seqEdge_script (s : State) : (seqEdge s).script = s.script := by
  unfold seqEdge
  repeat' split
  all_goals rfl

@[simp] theorem seqEdge_wire (s : State) : (seqEdge s).wire = s.wire := by
  unfold seqEdge
  repeat' split
  all_goals rfl

@[simp] theorem seqEdge_result (s : State) : (seqEdge s).result = s.result := by
  unfold seqEdge
  repeat' split
  all_goals rfl

/-! ### transmitInTx -/

@[simp] theorem transmitInTx_params (snap : List Byte) (s : State) : (transmitInTx snap s).params = s.params := by
  unfold transmitInTx transmitTick raiseFatal
  repeat' split
  all_goals rfl

@[simp] theorem transmitInTx_fb (snap : List Byte) (s : State) : (transmitInTx snap s).fb = s.fb := by
  unfold transmitInTx transmitTick raiseFatal
  repeat' split
  all_goals rfl

@[simp] theorem transmitInTx_blink (snap : List Byte) (s : State) : (transmitInTx snap s).blink = s.blink := by
  unfold transmitInTx transmitTick raiseFatal
  repeat' split
  all_goals rfl

@[simp] theorem transmitInTx_blinkStart (snap : List Byte) (s : State) : (transmitInTx snap s).blinkStart = s.blinkStart := by
  unfold transmitInTx transmitTick raiseFatal
  repeat' split
  all_goals rfl

@[simp] theorem transmitInTx_prevSample (snap : List Byte) (s : State) : (transmitInTx snap s).prevSample = s.prevSample := by
  unfold transmitInTx transmitTick raiseFatal
  repeat' split
  all_goals rfl

@[simp] theorem transmitInTx_baselineValid (snap : List Byte) (s : State) : (transmitInTx snap s).baselineValid = s.baselineValid := by
  unfold transmitInTx transmitTick raiseFatal
  repeat' split
  all_goals rfl

@[simp] theorem transmitInTx_curSample (snap : List Byte) (s : State) : (transmitInTx snap s).curSample = s.curSample := by
  unfold transmitInTx transmitTick raiseFatal
  repeat' split
  all_goals rfl

@[simp] theorem transmitInTx_pins (snap : List Byte) (s : State) : (transmitInTx snap s).pins = s.pins := by
  unfold transmitInTx transmitTick raiseFatal
  repeat' split
  all_goals rfl

@[simp] theorem transmitInTx_script (snap : List Byte) (s : State) : (transmitInTx snap s).script = s.script := by
  unfold transmitInTx transmitTick raiseFatal
  repeat' split
  all_goals rfl

@[simp] theorem transmitInTx_result (snap : List Byte) (s : State) : (transmitInTx snap s).result = s.result := by
  unfold transmitInTx transmitTick raiseFatal
  repeat' split
  all_goals rfl

end Sys2Proof.Machine
end

