-- ==== Sys2Proof/Laws/FrameBuffer.lean ====
section
/-!
SUPPORT. Laws of the Frame Buffer: what a pixel write, a fill and a clear leave at each index, and what the snapshot holds.
-/

namespace Sys2Proof.Machine

/-! ### Writing -/

@[simp] theorem length_fbWrite (p : Params) (fb : FrameBuffer) (index : Nat) (px : Pixel) :
    (fbWrite p fb index px).length = fb.length := by
  unfold fbWrite
  split <;> simp

/-- After a pixel write every pixel is the one written, if its index was named, and its old self otherwise. -/
theorem fbWrite_getElem? {p : Params} {fb : FrameBuffer} (index : Nat) (px : Pixel) {j : Nat}
    (hf : fb.length = p.ledCount) (h : j < p.ledCount) : (fbWrite p fb index px)[j]? = if j = index then some px else fb[j]? := by
  unfold fbWrite
  by_cases hj : j = index
  · subst hj
    rw [if_pos h, if_pos rfl, List.getElem?_set_self (by omega)]
  · rw [if_neg hj]
    split
    · exact List.getElem?_set_ne (Ne.symm hj)
    · rfl

/-- A pixel write out of range changes nothing (20 R68). -/
theorem fbWrite_of_le {p : Params} {fb : FrameBuffer} {index : Nat} {px : Pixel} (h : p.ledCount ≤ index) :
    fbWrite p fb index px = fb := if_neg (Nat.not_lt.2 h)

theorem length_foldl_fbWrite (p : Params) (is : List Nat) (fb : FrameBuffer) (px : Pixel) :
    (is.foldl (fun acc i => fbWrite p acc i px) fb).length = fb.length := by
  induction is generalizing fb with
  | nil => rfl
  | cons i is ih => rw [List.foldl_cons, ih, length_fbWrite]

/-- Writing one pixel value on the indices of a list. -/
theorem foldl_fbWrite_getElem? {p : Params} (is : List Nat) {fb : FrameBuffer} (px : Pixel) {j : Nat}
    (hf : fb.length = p.ledCount) (h : j < p.ledCount) :
    (is.foldl (fun acc i => fbWrite p acc i px) fb)[j]? = if j ∈ is then some px else fb[j]? := by
  induction is generalizing fb with
  | nil => simp
  | cons i is ih =>
    rw [List.foldl_cons, ih (by rw [length_fbWrite, hf]), fbWrite_getElem? i px hf h]
    by_cases hm : j ∈ is <;> by_cases hi : j = i <;> simp [hm, hi]

@[simp] theorem length_fbFill (p : Params) (fb : FrameBuffer) (px : Pixel) : (fbFill p fb px).length = fb.length :=
  length_foldl_fbWrite p _ fb px

/-- FILL paints every pixel, whatever the buffer held (42 R174). -/
theorem fbFill_eq_replicate {p : Params} {fb : FrameBuffer} (px : Pixel) (hf : fb.length = p.ledCount) :
    fbFill p fb px = List.replicate p.ledCount px := by
  apply List.ext_getElem?
  intro j
  by_cases h : j < p.ledCount
  · rw [fbFill, foldl_fbWrite_getElem? _ _ hf h, if_pos (List.mem_range.2 h), List.getElem?_replicate, if_pos h]
  · rw [List.getElem?_eq_none (by rw [length_fbFill]; omega), List.getElem?_eq_none (by simpa using h)]

/-- CLEAR paints every pixel (0,0,0) (42 R173). -/
theorem fbClear_eq_replicate {p : Params} {fb : FrameBuffer} (hf : fb.length = p.ledCount) :
    fbClear p fb = List.replicate p.ledCount Pixel.off := fbFill_eq_replicate Pixel.off hf

/-! ### The snapshot -/

@[simp] theorem length_snapshotOf (p : Params) (fb : FrameBuffer) : (snapshotOf p fb).length = p.frameBytes := by
  simp [snapshotOf]

/-- Byte `k` of the snapshot is `SnapByte(k)` (42 R176). -/
theorem snapshotOf_getElem? {p : Params} (fb : FrameBuffer) {k : Nat} (h : k < p.frameBytes) :
    (snapshotOf p fb)[k]? = some (snapByte fb k) := by
  simp [snapshotOf, h]

/-- `SnapByte` of a pixel's three bytes: green, red, blue (20 R64). -/
theorem snapByte_of_pixel {fb : FrameBuffer} {j : Nat} {px : Pixel} (h : fb[j]? = some px) :
    snapByte fb (3 * j) = px.g ∧ snapByte fb (3 * j + 1) = px.r ∧ snapByte fb (3 * j + 2) = px.b := by
  have h0 : 3 * j / 3 = j ∧ 3 * j % 3 = 0 := by omega
  have h1 : (3 * j + 1) / 3 = j ∧ (3 * j + 1) % 3 = 1 := by omega
  have h2 : (3 * j + 2) / 3 = j ∧ (3 * j + 2) % 3 = 2 := by omega
  simp [snapByte, channel, h0, h1, h2, h]

/-- The wire bytes of a list of pixels: three a pixel, green, red, blue (20 R64). -/
theorem wireBytes_getElem? (pixels : List Pixel) (k : Nat) :
    (pixels.flatMap fun px => [px.g, px.r, px.b])[k]? = pixels[k / 3]?.map fun px => channel px (k % 3) := by
  induction pixels generalizing k with
  | nil => simp
  | cons px pixels ih =>
    rw [List.flatMap_cons]
    match k with
    | 0 => rfl
    | 1 => rfl
    | 2 => rfl
    | k + 3 =>
      rw [List.getElem?_append_right (by simp), show (k + 3) / 3 = k / 3 + 1 by omega,
        show (k + 3) % 3 = k % 3 by omega, List.getElem?_cons_succ]
      exact ih k

/-- The snapshot, pixel by pixel in index order (42 R176, 20 R64). -/
theorem snapshotOf_eq_flatMap {p : Params} {fb : FrameBuffer} (hf : fb.length = p.ledCount) :
    snapshotOf p fb = fb.flatMap fun px => [px.g, px.r, px.b] := by
  apply List.ext_getElem?
  intro k
  rw [wireBytes_getElem?]
  by_cases hk : k < p.frameBytes
  · have hj : k / 3 < fb.length := by unfold Params.frameBytes at hk; omega
    rw [snapshotOf_getElem? fb hk, snapByte, List.getElem?_eq_getElem hj]
    rfl
  · rw [List.getElem?_eq_none (by simpa using hk), List.getElem?_eq_none (by unfold Params.frameBytes at hk; omega)]
    rfl

end Sys2Proof.Machine
end

