-- ==== Sys2Proof/Laws/Codec.lean ====
section
/-!
SUPPORT. Laws of the codes: the signed port, the bits of a byte, one symbol decoded, and the length of an encoding.
-/

namespace Sys2Proof

/-- A port read as a signed number holds a value of its width. -/
theorem sampleOk_signedOf (p : Params) (n : Nat) : p.SampleOk (signedOf p.sampleW n) := by
  have h : n % 2 ^ p.sampleW < 2 ^ p.sampleW := Nat.mod_lt _ (Nat.two_pow_pos _)
  simp only [Params.SampleOk, signedOf]
  generalize 2 ^ p.sampleW = m at *
  split <;> omega

/-- Driving a port with a signed number of its width and reading it back gives the number. -/
theorem signedOf_unsignedOf {p : Params} {x : Int} (h : p.SampleOk x) :
    signedOf p.sampleW (unsignedOf p.sampleW x) = x := by
  have hp : 0 < 2 ^ p.sampleW := Nat.two_pow_pos _
  obtain ⟨m, hw⟩ : ∃ m, 2 ^ p.sampleW = m := ⟨_, rfl⟩
  simp only [Params.SampleOk, signedOf, unsignedOf, hw] at *
  have hm : (x % (m : Int)) = if 0 ≤ x then x else x + m := by
    split
    · exact Int.emod_eq_of_lt (by assumption) (by omega)
    · rw [← Int.add_emod_right]
      exact Int.emod_eq_of_lt (by omega) (by omega)
  rw [hm]
  split
  · rw [Nat.mod_eq_of_lt (by omega)]
    split <;> omega
  · rw [Nat.mod_eq_of_lt (by omega)]
    split <;> omega

/-- A time of its width passes its port unchanged. -/
theorem timeOperand_of_timeOk {p : Params} {x : Stimulus} (h : p.TimeOk x.nowMs) : timeOperand p x = x.nowMs :=
  Nat.mod_eq_of_lt h

theorem timeOk_timeOperand (p : Params) (x : Stimulus) : p.TimeOk (timeOperand p x) :=
  Nat.mod_lt _ (Nat.two_pow_pos _)

@[simp] theorem faultCodeOf_bits (c : FaultCode) : faultCodeOf (c.bits.toNat) = c := by cases c <;> rfl

end Sys2Proof

namespace Sys2Proof.Machine

/-- The bits of a byte, put together again, are the byte. -/
theorem byteOf_bits (d : Byte) :
    byteOf (d.getLsbD 7) (d.getLsbD 6) (d.getLsbD 5) (d.getLsbD 4) (d.getLsbD 3) (d.getLsbD 2) (d.getLsbD 1)
      (d.getLsbD 0) = d := by
  revert d
  decide

/-- The symbol of a bit decodes to the bit, if the two symbols differ (40 R126, R127). -/
theorem decodeBit_symbol {p : Params} (h : (p.t0h, p.t0l) ≠ (p.t1h, p.t1l)) (v : Bool) :
    decodeBit p ⟨true, highTicks p v⟩ ⟨false, lowTicks p v⟩ = some v := by
  cases v
  · simp [decodeBit, highTicks, lowTicks]
  · simp only [decodeBit, highTicks, lowTicks]
    rw [if_neg, if_pos]
    · simp
    · rintro ⟨-, -, h1, h2⟩
      exact h (by simp_all)

/-- A decoded pair of pulses is the symbol of the bit (40 R126). -/
theorem symbol_of_decodeBit {p : Params} {a b : Pulse} {v : Bool} (h : decodeBit p a b = some v) :
    [a, b] = pulsesOfBit p v := by
  obtain ⟨la, da⟩ := a
  obtain ⟨lb, db⟩ := b
  simp only [decodeBit] at h
  split at h
  · next hc =>
    obtain ⟨rfl, rfl, rfl, rfl⟩ := hc
    cases h
    rfl
  · split at h
    · next hc =>
      obtain ⟨rfl, rfl, rfl, rfl⟩ := hc
      cases h
      rfl
    · cases h

@[simp] theorem length_pulsesOfByte (p : Params) (d : Byte) : (pulsesOfByte p d).length = 16 := rfl

@[simp] theorem length_pulsesOfBytes (p : Params) (bs : List Byte) :
    (pulsesOfBytes p bs).length = 16 * bs.length := by
  induction bs with
  | nil => rfl
  | cons d bs ih => simp_all [pulsesOfBytes, Nat.mul_add, Nat.add_comm]

/-- The symbols of a byte list are the symbols of its bits in order. -/
theorem pulsesOfBytes_eq_bits (p : Params) (bs : List Byte) :
    pulsesOfBytes p bs = (bs.flatMap bitsOf).flatMap (pulsesOfBit p) := by
  simp only [pulsesOfBytes, List.flatMap_assoc]
  rfl

end Sys2Proof.Machine
end

