-- ==== Sys2Proof/Laws/Control.lean ====
section
/-!
SUPPORT. One lemma for each shared operation that says once everything it can do: entering HALTED, recording a cycle, the
sequencer, the edge without a command, the controller, and taking an item of the script.
-/

namespace Sys2Proof.Machine

/-! ### Entering HALTED -/

/-- Outside HALTED, `raise Fatal` does what 60 R254 says. -/
theorem raiseFatal_of_not_halted {c : FaultCode} {s : State} (h : s.mode ≠ .halted) :
    raiseFatal c s =
      { s with mode := .halted, faultCode := c, seq := Seq.rest, tickDone := false, sensorWarn := false } := if_neg h

/-- In HALTED nothing further is raised (60 R259). -/
theorem raiseFatal_of_halted {c : FaultCode} {s : State} (h : s.mode = .halted) : raiseFatal c s = s := if_pos h

/-! ### The record of the wire -/

/-- What an edge adds to the trace: the level of the cycle that ends, but for the TX_LOAD cycle (41 R156). -/
theorem recordTick_eq (s : State) :
    recordTick s =
      if s.mode = .tx ∧ s.seq.phase ≠ .load ∧ s.seq.phase ≠ .idle then { s with wire := emit s.wire ⟨dout s, 1⟩ }
      else s := by
  unfold recordTick dout
  by_cases hm : s.mode = .tx
  · cases hp : s.seq.phase <;> simp [hm]
  · simp [hm]

theorem recordTick_of_not_tx {s : State} (h : s.mode ≠ .tx) : recordTick s = s := if_neg h

/-! ### Operations issued alone -/

theorem betweenTicks_of_wait {f : State → State} {s : State} (h : s.mode = .wait) : betweenTicks f s = f s := if_pos h

theorem betweenTicks_of_not_wait {f : State → State} {s : State} (h : s.mode ≠ .wait) : betweenTicks f s = s := if_neg h

/-! ### The edge without a command -/

theorem mode_cases (m : Mode) : m = .init ∨ m = .wait ∨ m = .tx ∨ m = .halted := by cases m <;> simp

theorem nopEdge_of_wait {s : State} (h : s.mode = .wait) : nopEdge s = clearStrobes s := by
  simp [nopEdge, h, recordTick_of_not_tx]

theorem nopEdge_of_halted {s : State} (h : s.mode = .halted) : nopEdge s = clearStrobes s := by
  simp [nopEdge, h, recordTick_of_not_tx]

theorem nopEdge_of_init {s : State} (h : s.mode = .init) :
    nopEdge s =
      if s.pins.initFault then raiseFatal .initFault (clearStrobes s) else { clearStrobes s with mode := .wait } := by
  simp [nopEdge, h, recordTick_of_not_tx]

theorem nopEdge_of_tx_fault {s : State} (h : s.mode = .tx) (hf : s.pins.txFault = true) :
    nopEdge s = raiseFatal .txFault (clearStrobes (recordTick s)) := by
  simp [nopEdge, h, hf]

theorem nopEdge_of_tx {s : State} (h : s.mode = .tx) (hf : s.pins.txFault = false) :
    nopEdge s = seqEdge (clearStrobes (recordTick s)) := by
  simp [nopEdge, h, hf]

theorem recordTick_with_pins (s : State) (q : Pins) :
    recordTick { s with pins := q } = { recordTick s with pins := q } := by
  by_cases hm : s.mode = .tx
  · cases hp : s.seq.phase <;> simp only [recordTick, hm, hp, if_true]
  · simp only [recordTick, hm, if_false]

theorem raiseFatal_with_pins (c : FaultCode) (s : State) (q : Pins) :
    raiseFatal c { s with pins := q } = { raiseFatal c s with pins := q } := by
  by_cases hm : s.mode = .halted <;> simp only [raiseFatal, hm, if_true, if_false]

theorem seqEdge_with_pins (s : State) (q : Pins) :
    seqEdge { s with pins := q } = { seqEdge s with pins := q } := by
  cases hp : s.seq.phase <;> by_cases hc : 1 < s.seq.cnt <;>
    cases hs : successor s.params s.seq.byteIdx s.seq.bitIdx <;>
      simp only [seqEdge, hp, hc, hs, completeTick, tickEnd, if_true, if_false]

/-- The edge without a command looks at `tx_fault` in mode TX and at `init_fault` in mode INIT, and at no other pin
(60 R251). -/
theorem nopEdge_with_pins {s : State} {q : Pins} (htx : s.mode = .tx → q.txFault = s.pins.txFault)
    (hinit : s.mode = .init → q.initFault = s.pins.initFault) :
    nopEdge { s with pins := q } = { nopEdge s with pins := q } := by
  have hclear (t : State) : clearStrobes { t with pins := q } = { clearStrobes t with pins := q } := rfl
  rcases mode_cases s.mode with hm | hm | hm | hm
  · rw [nopEdge_of_init (s := { s with pins := q }) hm, nopEdge_of_init hm, hclear, raiseFatal_with_pins, hinit hm]
    split <;> rfl
  · rw [nopEdge_of_wait (s := { s with pins := q }) hm, nopEdge_of_wait hm, hclear]
  · cases hf : s.pins.txFault
    · rw [nopEdge_of_tx (s := { s with pins := q }) hm ((htx hm).trans hf), nopEdge_of_tx hm hf, recordTick_with_pins,
        hclear, seqEdge_with_pins]
    · rw [nopEdge_of_tx_fault (s := { s with pins := q }) hm ((htx hm).trans hf), nopEdge_of_tx_fault hm hf,
        recordTick_with_pins, hclear, raiseFatal_with_pins]
  · rw [nopEdge_of_halted (s := { s with pins := q }) hm, nopEdge_of_halted hm, hclear]

/-- A command with `rst = 0` outside mode WAIT is an edge without a command (44 R239). -/
theorem exec_eq_nopEdge {i : Instr} {s : State} (hi : isCommandWithoutReset i = true) (h : s.mode ≠ .wait) :
    exec i s = .next (nopEdge s) := by
  cases i <;> simp_all [isCommandWithoutReset, exec, execNop, execTick, execTickSfault, tickEdge, tickSfaultEdge]

/-! ### The sequencer -/

/-- A step of the sequencer either stays inside the transmission and moves `seq` alone, or is the completion edge. -/
theorem seqEdge_cases (s : State) :
    (seqEdge s = { s with seq := (seqEdge s).seq }) ∨
      (s.seq.phase = .latch ∧ s.seq.cnt ≤ 1 ∧ seqEdge s = completeTick s) := by
  unfold seqEdge
  split
  · exact .inl rfl
  · exact .inl rfl
  · split <;> exact .inl rfl
  · split
    · exact .inl rfl
    · split <;> exact .inl rfl
  · next hp =>
    split
    · exact .inl rfl
    · next hc => exact .inr ⟨hp, by omega, rfl⟩

theorem seqEdge_of_load {s : State} (h : s.seq.phase = .load) :
    seqEdge s = { s with seq := ⟨.high, 0, 7, highTicks s.params (curBit s.fb 0 7)⟩ } := by
  simp only [seqEdge, h]

theorem seqEdge_of_high {s : State} (h : s.seq.phase = .high) :
    seqEdge s =
      { s with
        seq :=
          if 1 < s.seq.cnt then ⟨.high, s.seq.byteIdx, s.seq.bitIdx, s.seq.cnt - 1⟩
          else ⟨.low, s.seq.byteIdx, s.seq.bitIdx, lowTicks s.params (curBit s.fb s.seq.byteIdx s.seq.bitIdx)⟩ } := by
  simp only [seqEdge, h]
  split <;> rfl

theorem seqEdge_of_low {s : State} (h : s.seq.phase = .low) :
    seqEdge s =
      { s with
        seq :=
          if 1 < s.seq.cnt then ⟨.low, s.seq.byteIdx, s.seq.bitIdx, s.seq.cnt - 1⟩
          else
            match successor s.params s.seq.byteIdx s.seq.bitIdx with
            | none => ⟨.latch, s.params.lastByte, 0, s.params.tLatch⟩
            | some (k, j) => ⟨.high, k, j, highTicks s.params (curBit s.fb k j)⟩ } := by
  simp only [seqEdge, h]
  by_cases hc : 1 < s.seq.cnt
  · simp only [hc, if_true]
  · cases successor s.params s.seq.byteIdx s.seq.bitIdx <;> simp only [hc, if_false]

theorem seqEdge_of_latch_count {s : State} (h : s.seq.phase = .latch) (hc : 1 < s.seq.cnt) :
    seqEdge s = { s with seq := ⟨.latch, s.params.lastByte, 0, s.seq.cnt - 1⟩ } := by
  simp only [seqEdge, h, if_pos hc]

theorem seqEdge_of_latch_done {s : State} (h : s.seq.phase = .latch) (hc : s.seq.cnt ≤ 1) :
    seqEdge s = completeTick s := by
  simp only [seqEdge, h, if_neg (Nat.not_lt.2 hc)]

theorem seqEdge_of_idle {s : State} (h : s.seq.phase = .idle) : seqEdge s = s := by
  simp only [seqEdge, h]

/-- What an edge without a command can write, in any mode: never the Frame Buffer or the Blink State, the sample of the tick,
the parameters or the host's side (44 R238, 20 R76). -/
theorem nopEdge_frame (s : State) :
    nopEdge s =
      { s with
        prevSample := (nopEdge s).prevSample, baselineValid := (nopEdge s).baselineValid, mode := (nopEdge s).mode
        faultCode := (nopEdge s).faultCode, seq := (nopEdge s).seq, tickDone := (nopEdge s).tickDone
        sensorWarn := (nopEdge s).sensorWarn, wire := (nopEdge s).wire } := by
  rcases mode_cases s.mode with hm | hm | hm | hm
  · rw [nopEdge_of_init hm]
    split
    · rw [raiseFatal_of_not_halted (by simp [hm])]
      rfl
    · rfl
  · rw [nopEdge_of_wait hm]
    rfl
  · cases hf : s.pins.txFault
    · rw [nopEdge_of_tx hm hf, recordTick_eq]
      rcases seqEdge_cases (clearStrobes (recordTick s)) with h | ⟨-, -, h⟩ <;> rw [recordTick_eq] at h <;> rw [h] <;>
        split <;> rfl
    · rw [nopEdge_of_tx_fault hm hf, raiseFatal_of_not_halted (by simp [hm]), recordTick_eq]
      split <;> rfl
  · rw [nopEdge_of_halted hm]
    rfl

/-- The successor of a position of the frame is the next one, and only the last has none (41 R149). -/
theorem successor_cases {p : Params} {k : Nat} (hk : k < p.frameBytes) (j : Fin 8) :
    (successor p k j = none ∧ k = p.lastByte ∧ j = 0) ∨
      ∃ k' j', successor p k j = some (k', j') ∧ k' < p.frameBytes ∧
        8 * k' + (7 - j'.val) = 8 * k + (7 - j.val) + 1 := by
  have hj := j.isLt
  unfold successor Params.lastByte
  split
  · exact .inr ⟨_, _, rfl, hk, by simp only; omega⟩
  · split
    · next h => exact .inr ⟨_, _, rfl, h, by simp only [Fin.isValue, show ((7 : Fin 8) : Nat) = 7 from rfl]; omega⟩
    · exact .inl ⟨rfl, by omega, by omega⟩

/-! ### The controller -/

/-- CTRL_UPDATE on the Blink State the trigger has left (43 R192). -/
theorem ctrlUpdate_eq (cur : Int) (now : Nat) (s : State) :
    ctrlUpdate cur now s =
      windowUpdate now (if opensWindow s cur then { s with blink := .blinking, blinkStart := now } else s) := rfl

/-- The colour of a tick inside the window (43 R199). -/
def phaseColour (p : Params) (now : Nat) : Pixel :=
  if togglePhase p now = p.redPhase.val then p.colorOn else p.colorOff

/-- The window and the colour: the three cases of 43 R199 to R201, each one paint of the whole buffer. -/
theorem windowUpdate_cases (now : Nat) (s : State) :
    (s.blink = .idle ∧ windowUpdate now s = { s with fb := fbFill s.params s.fb s.params.colorOff }) ∨
    (s.blink = .blinking ∧ elapsed s.params now s.blinkStart < s.params.blinkDuration ∧
      windowUpdate now s = { s with fb := fbFill s.params s.fb (phaseColour s.params now) }) ∨
    (s.blink = .blinking ∧ s.params.blinkDuration ≤ elapsed s.params now s.blinkStart ∧
      windowUpdate now s = { s with blink := .idle, fb := fbFill s.params s.fb s.params.colorOff }) := by
  unfold windowUpdate
  split
  · next hb =>
    split
    · next he => exact .inr (.inl ⟨hb, he, rfl⟩)
    · next he => exact .inr (.inr ⟨hb, Nat.le_of_not_lt he, rfl⟩)
  · next hb => exact .inl ⟨hb, rfl⟩

/-- The start of the window as the trigger leaves it (43 R196, R197). -/
def startAfter (cur : Int) (now : Nat) (s : State) : Nat := if opensWindow s cur then now else s.blinkStart

/-- Whether the tick ends with the window open (43 R198 to R201). -/
def openAfter (cur : Int) (now : Nat) (s : State) : Prop :=
  (opensWindow s cur = true ∨ s.blink = .blinking) ∧
    elapsed s.params now (startAfter cur now s) < s.params.blinkDuration

/-- CTRL_UPDATE in one equation: it writes the Blink State and paints the whole buffer in one colour (43 R202). -/
theorem ctrlUpdate_cases (cur : Int) (now : Nat) (s : State) :
    (openAfter cur now s ∧
      ctrlUpdate cur now s =
        { s with
          blink := .blinking
          blinkStart := startAfter cur now s
          fb := fbFill s.params s.fb (phaseColour s.params now) }) ∨
    (¬ openAfter cur now s ∧
      ctrlUpdate cur now s =
        { s with
          blink := .idle
          blinkStart := startAfter cur now s
          fb := fbFill s.params s.fb s.params.colorOff }) := by
  rw [ctrlUpdate_eq]
  unfold openAfter startAfter
  by_cases ho : opensWindow s cur = true
  · simp only [ho, if_true]
    rcases windowUpdate_cases now { s with blink := .blinking, blinkStart := now } with ⟨h, -⟩ | ⟨-, he, h⟩ | ⟨-, he, h⟩
    · cases h
    · exact .inl ⟨⟨.inl trivial, he⟩, h⟩
    · exact .inr ⟨fun hn => Nat.not_lt.2 he hn.2, h⟩
  · simp only [Bool.not_eq_true] at ho
    simp only [ho, Bool.false_eq_true, if_false, false_or]
    rcases windowUpdate_cases now s with ⟨hb, h⟩ | ⟨hb, he, h⟩ | ⟨hb, he, h⟩
    · refine .inr ⟨fun hn => ?_, ?_⟩
      · rw [hb] at hn
        cases hn.1
      · rw [h, ← hb]
    · refine .inl ⟨⟨hb, he⟩, ?_⟩
      rw [h, ← hb]
    · exact .inr ⟨fun hn => Nat.not_lt.2 he hn.2, h⟩

/-- The elapsed time is a value of `u TIME_W` (43 R198). -/
theorem elapsed_lt (p : Params) (now start : Nat) : elapsed p now start < 2 ^ p.timeW := by
  have hp : 0 < 2 ^ p.timeW := Nat.two_pow_pos _
  unfold elapsed
  generalize 2 ^ p.timeW = m at *
  have h1 := Int.emod_nonneg ((now : Int) - start) (b := (m : Int)) (by omega)
  have h2 := Int.emod_lt_of_pos ((now : Int) - start) (b := (m : Int)) (by omega)
  omega

@[simp] theorem elapsed_self (p : Params) (now : Nat) : elapsed p now now = 0 := by simp [elapsed]

/-- The elapsed time is right across a wrap (43 R198). -/
theorem elapsed_add_mod {p : Params} {d : Nat} (start : Nat) (h : d < 2 ^ p.timeW) :
    elapsed p ((start + d) % 2 ^ p.timeW) start = d := by
  have hp : 0 < 2 ^ p.timeW := Nat.two_pow_pos _
  unfold elapsed
  generalize 2 ^ p.timeW = m at *
  rw [Int.natCast_emod, Int.emod_sub_emod]
  have : ((start + d : Nat) : Int) - (start : Int) = (d : Int) := by omega
  rw [this, Int.emod_eq_of_lt (by omega) (by omega)]
  rfl

/-! ### The script -/

theorem fetch_of_nil {s : State} (h : s.script = []) : fetch s = (idleStimulus, { s with pins := {} }) := by
  simp [fetch, h, idleStimulus]

theorem fetch_of_cons {s : State} {x : Stimulus} {rest : List Stimulus} (h : s.script = x :: rest) :
    fetch s = (x, { s with script := rest, pins := x.pins }) := by
  simp [fetch, h]

end Sys2Proof.Machine
end

