-- ==== Sys2Proof/Laws/Exec.lean ====
section
/-!
SUPPORT. The inversion lemma of `exec`: everything an instruction that answers a next state can have done to the state.
Whole-machine rules are read off it, without unfolding a meaning.
-/

namespace Sys2Proof.Machine

/-- The controller writes the Blink State and the Frame Buffer and nothing else (43 R202). -/
theorem ctrlUpdate_frame (cur : Int) (now : Nat) (s : State) :
    ctrlUpdate cur now s =
      { s with
        blink := (ctrlUpdate cur now s).blink
        blinkStart := (ctrlUpdate cur now s).blinkStart
        fb := (ctrlUpdate cur now s).fb } := by
  rcases ctrlUpdate_cases cur now s with ⟨-, h⟩ | ⟨-, h⟩ <;> rw [h]

/-- The start of a window is the old one or the time of the tick (43 R196, R197). -/
theorem ctrlUpdate_blinkStart (cur : Int) (now : Nat) (s : State) :
    (ctrlUpdate cur now s).blinkStart = now ∨ (ctrlUpdate cur now s).blinkStart = s.blinkStart := by
  rcases ctrlUpdate_cases cur now s with ⟨-, h⟩ | ⟨-, h⟩ <;> rw [h] <;> simp only [startAfter] <;> split <;> simp

/-- The state after `raise Fatal(code)` with a given record of the wire (60 R254). -/
def haltedWith (code : FaultCode) (wire : List Pulse) (s : State) : State :=
  { s with
    mode := .halted, faultCode := code, seq := Seq.rest, tickDone := false, sensorWarn := false, wire := wire }

/-- The state after a TRANSMIT in mode TX that no fault strikes, with a given record of the wire: the last cycle of
the latch (41 R141, R142). -/
def lastLatchCycle (wire : List Pulse) (s : State) : State :=
  { s with seq := ⟨.latch, s.params.lastByte, 0, 1⟩, tickDone := false, sensorWarn := false, wire := wire }

/-- TRANSMIT in mode TX is dropped, or runs to the last cycle of the latch, or is cut by a fault (41 R141, R157). -/
theorem transmitInTx_cases {s : State} (snap : List Byte) (h : s.mode = .tx) :
    transmitInTx snap s = s ∨
      (s.seq.phase = .load ∧ snap = snapshotOf s.params s.fb ∧
        ∃ w, transmitInTx snap s = lastLatchCycle w s ∨ transmitInTx snap s = haltedWith .txFault w s) := by
  unfold transmitInTx
  split
  · next hc =>
    refine .inr ⟨hc.1, hc.2, ?_⟩
    unfold transmitTick
    split
    · exact ⟨_, .inl rfl⟩
    · next n _ =>
      exact ⟨emitAll [] (takeTicks n (frameTrain s.params snap)),
        .inr (raiseFatal_of_not_halted (by rw [show State.mode _ = s.mode from rfl, h]; decide))⟩
  · exact .inl rfl

/-- TRANSMIT of the tick in progress, where no fault is seen (41 R141, R142). -/
theorem transmitInTx_of_load {s : State} (hp : s.seq.phase = .load)
    (hn : ticksBeforeFault s.pins.txFaultAt (ticksOf (frameTrain s.params (snapshotOf s.params s.fb))) = none) :
    transmitInTx (snapshotOf s.params s.fb) s =
      lastLatchCycle
        (emitAll [] (pulsesOfBytes s.params (snapshotOf s.params s.fb) ++ [⟨false, s.params.tLatch - 1⟩])) s := by
  rw [transmitInTx, if_pos ⟨hp, rfl⟩, transmitTick, hn]
  rfl

/-- The edge after it is the completion edge (41 R155). -/
theorem nopEdge_lastLatchCycle {s : State} (wire : List Pulse) (hm : s.mode = .tx) (hf : s.pins.txFault = false) :
    nopEdge (lastLatchCycle wire s) = completeTick (lastLatchCycle (emit wire ⟨false, 1⟩) s) := by
  have hm' : (lastLatchCycle wire s).mode = .tx := hm
  rw [nopEdge_of_tx hm' hf, recordTick_eq, if_pos ⟨hm', by simp [lastLatchCycle]⟩,
    seqEdge_of_latch_done rfl (Nat.le_refl 1)]
  rfl

/-- The level of the last cycle of the latch completes the record of the frame. -/
theorem emit_last_level {p : Params} (hl : 1 ≤ p.tLatch) (snap : List Byte) :
    emit (emitAll [] (pulsesOfBytes p snap ++ [⟨false, p.tLatch - 1⟩])) ⟨false, 1⟩ = emitAll [] (frameTrain p snap) := by
  apply List.reverse_injective
  rw [show ∀ w q, emit w q = emitAll w [q] from fun _ _ => rfl, ← emitAll_append, reverse_emitAll_nil,
    reverse_emitAll_nil, frameTrain, latchPulse, List.append_assoc, List.cons_append, List.nil_append, runs_merge,
    Nat.sub_add_cancel hl]

/-- What an instruction does, as seen from the outside. -/
inductive Effect (i : Instr) (s t : State) : Prop where
  /-- An edge with `rst = 1`. -/
  | reset (hi : i = .reset) (ht : t = resetEdge s)
  /-- A command with `rst = 0` that is carried out as NOP. -/
  | edge (hi : isCommandWithoutReset i = true) (ht : t = nopEdge s)
  /-- The accept edge of a tick. -/
  | accept (sample : Int) (now : Nat) (hi : i = .tick sample now) (hm : s.mode = .wait)
    (ht : t = acceptTick sample now s)
  /-- A failed read under the fatal policy. -/
  | sensorHalt (hi : i = .tickSfault) (hm : s.mode = .wait) (hp : s.params.sensorFaultPolicy = .fatal)
    (ht : t = raiseFatal .sensorFault (clearStrobes s))
  /-- A failed read under the tolerant policy. -/
  | sensorSkip (hi : i = .tickSfault) (hm : s.mode = .wait) (hp : s.params.sensorFaultPolicy = .tolerant)
    (ht : t = { s with tickDone := true, sensorWarn := true })
  /-- CTRL_UPDATE as an operation. -/
  | ctrl (cur : Int) (now : Nat) (hi : i = .ctrlUpdate cur now) (hm : s.mode = .wait) (ht : t = ctrlUpdate cur now s)
  /-- TICK_END as an operation. -/
  | tickEnd (hi : i = .tickEnd) (hm : s.mode = .wait) (ht : t = Machine.tickEnd s)
  /-- TRANSMIT of the tick in progress. -/
  | transmit (hi : i = .transmit (snapshotOf s.params s.fb)) (hm : s.mode = .tx) (hp : s.seq.phase = .load)
    (ht : ∃ w, t = lastLatchCycle w s)
  /-- HALT, or a TRANSMIT cut by a fault. -/
  | halt (code : FaultCode) (hi : isCommand i = false) (hc : code ≠ .none) (hh : s.mode = .halted → t = s)
    (ht : s.mode ≠ .halted → ∃ w, t = haltedWith code w s)
  /-- SET_PIXEL, CLEAR or FILL between ticks. -/
  | paint
    (hi : (∃ index r g b, i = .setPixel index r g b ∧ index < s.params.ledCount) ∨ i = .clear ∨ ∃ r g b, i = .fill r g b)
    (hm : s.mode = .wait) (hl : t.fb.length = s.fb.length) (ht : t = { s with fb := t.fb })
  /-- A wire symbol between ticks. -/
  | wire (hi : isCommand i = false) (hm : s.mode = .wait) (ht : t = { s with wire := t.wire })
  /-- What a value operation returns, or nothing at all. -/
  | value (hi : isCommand i = false) (ht : t = { s with result := t.result })

/-- An operation issued alone outside mode WAIT leaves the state as it was. -/
theorem effect_of_betweenTicks {i : Instr} {s : State} {f : State → State} (hi : isCommand i = false)
    (h : s.mode = .wait → Effect i s (f s)) : Effect i s (betweenTicks f s) := by
  by_cases hm : s.mode = .wait
  · rw [betweenTicks_of_wait hm]
    exact h hm
  · rw [betweenTicks_of_not_wait hm]
    exact .value hi rfl

/-- The inversion lemma: a next state of `exec` is one of these. -/
theorem effect_of_exec {i : Instr} {s t : State} (h : exec i s = .next t) : Effect i s t := by
  cases i <;> simp only [exec] at h
  case reset => cases h; exact .reset rfl rfl
  case nop => cases h; exact .edge rfl rfl
  case tick sample now =>
    cases h
    unfold tickEdge
    split
    · next hm => exact .accept sample now rfl hm rfl
    · exact .edge rfl rfl
  case tickSfault =>
    cases h
    unfold tickSfaultEdge
    split
    · next hm =>
      split
      · next hp => exact .sensorHalt rfl hm hp rfl
      · next hp => exact .sensorSkip rfl hm hp rfl
    · exact .edge rfl rfl
  case encodeBit => cases h; exact .value rfl rfl
  case encodeByte => cases h; exact .value rfl rfl
  case encode => cases h; exact .value rfl rfl
  case decode => cases h; exact .value rfl rfl
  case snapshot => cases h; exact .value rfl rfl
  case ctrlUpdate cur now => cases h; exact effect_of_betweenTicks rfl fun hm => .ctrl cur now rfl hm rfl
  case tickEnd => cases h; exact effect_of_betweenTicks rfl fun hm => .tickEnd rfl hm rfl
  case setPixel index r g b =>
    cases h
    refine effect_of_betweenTicks rfl fun hm => ?_
    by_cases hi : index < s.params.ledCount
    · exact .paint (.inl ⟨index, r, g, b, rfl, hi⟩) hm (length_fbWrite _ _ _ _) rfl
    · refine .value rfl ?_
      rw [fbWrite_of_le (Nat.le_of_not_lt hi)]
  case clear =>
    cases h
    exact effect_of_betweenTicks rfl fun hm => .paint (.inr (.inl rfl)) hm (length_fbFill _ _ _) rfl
  case fill r g b =>
    cases h
    exact effect_of_betweenTicks rfl fun hm => .paint (.inr (.inr ⟨r, g, b, rfl⟩)) hm (length_fbFill _ _ _) rfl
  case sym0 => cases h; exact effect_of_betweenTicks rfl fun hm => .wire rfl hm rfl
  case sym1 => cases h; exact effect_of_betweenTicks rfl fun hm => .wire rfl hm rfl
  case latch => cases h; exact effect_of_betweenTicks rfl fun hm => .wire rfl hm rfl
  case pixelWord => cases h; exact effect_of_betweenTicks rfl fun hm => .wire rfl hm rfl
  case unassigned => cases h
  case halt code =>
    unfold execHalt at h
    split at h
    · cases h
    · next hc =>
      cases h
      exact .halt code rfl hc raiseFatal_of_halted fun hm => ⟨s.wire, raiseFatal_of_not_halted hm⟩
  case transmit snap =>
    unfold execTransmit at h
    split at h
    · split at h
      · next hm =>
        cases h
        rcases transmitInTx_cases snap hm with hs | ⟨hp, rfl, w, hw | hw⟩
        · exact .value rfl (by rw [hs])
        · exact .transmit rfl hm hp ⟨w, hw⟩
        · refine .halt .txFault rfl (by decide) (fun hh => ?_) fun _ => ⟨w, hw⟩
          rw [hm] at hh
          cases hh
      · cases h
    · cases h

end Sys2Proof.Machine
end

