-- ==== Sys2Proof/Laws/PerInstr.lean ====
section
/-!
SUPPORT. The per-instruction family EncodedForm: the code word the encoder writes for an instruction has the encoding and
the length its row of spec/opcode_table.json gives it.
-/

namespace Sys2Proof.Laws.EncodedForm

/-- The row's format and length: CMD rows are command vectors, UOP rows operation words of the pattern's length
(SET_PIXEL's has IDX_W index bits), WIRE rows data bits or the held line. -/
def rowOf (p : Params) : Instr → Option (Bool × Nat)
  | .reset => none
  | .nop => none
  | .tick _ _ => none
  | .tickSfault => none
  | .encodeBit _ => some (true, 5)
  | .encodeByte _ => some (true, 12)
  | .encode _ => some (true, 4)
  | .decode _ => some (true, 4)
  | .transmit _ => some (true, 4)
  | .setPixel _ _ _ _ => some (true, 28 + p.idxW)
  | .clear => some (true, 4)
  | .fill _ _ _ => some (true, 28)
  | .snapshot => some (true, 4)
  | .ctrlUpdate _ _ => some (true, 4)
  | .tickEnd => some (true, 4)
  | .halt _ => some (true, 6)
  | .unassigned _ => some (true, 4)
  | .sym0 => some (false, 1)
  | .sym1 => some (false, 1)
  | .latch => some (false, 0)
  | .pixelWord _ _ _ => some (false, 24)

/-- A code word's format and length, in the same terms. -/
def formOf : CodeWord → Option (Bool × Nat)
  | .command _ => none
  | .operation len _ => some (true, len)
  | .data len _ => some (false, len)
  | .lineLow => some (false, 0)

/-- The value of a word fits its length. -/
def Fits : CodeWord → Prop
  | .command _ => True
  | .operation len val => val < 2 ^ len
  | .data len val => val < 2 ^ len
  | .lineLow => True

/-- The encoder's word for a well-formed `i` has the form of its row, and its value fits that many bits. -/
def Statement (i : Instr) : Prop :=
  ∀ p : Params, wellFormed p i = true → formOf (encode p i).word = rowOf p i ∧ Fits (encode p i).word

theorem reset : Statement .reset := fun _ _ => ⟨rfl, trivial⟩

theorem nop : Statement .nop := fun _ _ => ⟨rfl, trivial⟩

theorem tick (sample : Int) (now : Nat) : Statement (.tick sample now) := fun _ _ => ⟨rfl, trivial⟩

theorem tickSfault : Statement .tickSfault := fun _ _ => ⟨rfl, trivial⟩

theorem encodeBit (v : Bool) : Statement (.encodeBit v) := fun _ _ => ⟨rfl, by cases v <;> simp [encode, Fits]⟩

theorem encodeByte (d : Byte) : Statement (.encodeByte d) := fun _ _ =>
  ⟨rfl, by have := d.isLt; simp only [encode, Fits]; omega⟩

theorem encode (bs : List Byte) : Statement (.encode bs) := fun _ _ => ⟨rfl, by simp [Sys2Proof.encode, Fits]⟩

theorem decode (ps : List Pulse) : Statement (.decode ps) := fun _ _ => ⟨rfl, by simp [Sys2Proof.encode, Fits]⟩

theorem transmit (snap : List Byte) : Statement (.transmit snap) := fun _ _ =>
  ⟨rfl, by simp [Sys2Proof.encode, Fits]⟩

theorem setPixel (index : Nat) (r g b : Byte) : Statement (.setPixel index r g b) := fun p hw =>
  ⟨rfl, by
    have := r.isLt; have := g.isLt; have := b.isLt
    have hi : index < 2 ^ p.idxW := by simpa [wellFormed] using hw
    have h24 : 2 ^ (24 + p.idxW) = 2 ^ 24 * 2 ^ p.idxW := Nat.pow_add ..
    have h28 : 2 ^ (28 + p.idxW) = 2 ^ 28 * 2 ^ p.idxW := Nat.pow_add ..
    simp only [Sys2Proof.encode, Fits, h24, h28]
    generalize 2 ^ p.idxW = m at *
    omega⟩

theorem clear : Statement .clear := fun _ _ => ⟨rfl, by simp [Sys2Proof.encode, Fits]⟩

theorem fill (r g b : Byte) : Statement (.fill r g b) := fun _ _ =>
  ⟨rfl, by
    have := r.isLt; have := g.isLt; have := b.isLt
    simp only [Sys2Proof.encode, Fits]; omega⟩

theorem snapshot : Statement .snapshot := fun _ _ => ⟨rfl, by simp [Sys2Proof.encode, Fits]⟩

theorem ctrlUpdate (cur : Int) (now : Nat) : Statement (.ctrlUpdate cur now) := fun _ _ =>
  ⟨rfl, by simp [Sys2Proof.encode, Fits]⟩

theorem tickEnd : Statement .tickEnd := fun _ _ => ⟨rfl, by simp [Sys2Proof.encode, Fits]⟩

theorem halt (code : FaultCode) : Statement (.halt code) := fun _ _ =>
  ⟨rfl, by have := code.bits.isLt; simp only [Sys2Proof.encode, Fits]; omega⟩

theorem unassigned (x : BitVec 2) : Statement (.unassigned x) := fun _ _ =>
  ⟨rfl, by have := x.isLt; simp only [Sys2Proof.encode, Fits]; omega⟩

theorem sym0 : Statement .sym0 := fun _ _ => ⟨rfl, by simp [Sys2Proof.encode, Fits]⟩

theorem sym1 : Statement .sym1 := fun _ _ => ⟨rfl, by simp [Sys2Proof.encode, Fits]⟩

theorem latch : Statement .latch := fun _ _ => ⟨rfl, trivial⟩

theorem pixelWord (g r b : Byte) : Statement (.pixelWord g r b) := fun _ _ =>
  ⟨rfl, by
    have := g.isLt; have := r.isLt; have := b.isLt
    simp only [Sys2Proof.encode, Fits]; omega⟩

end Sys2Proof.Laws.EncodedForm
end

