-- ==== Sys2Proof/Tests/Slice0.lean ====
section
/-!
SUPPORT. Tests on fixed values, each from a worked example or a table of the spec (cited), and the witnesses that meet
the hypotheses of the statements.
-/

namespace Sys2Proof.Tests

open Sys2Proof.Machine

/-! ### Small states -/

/-- The parameters of 95, section 2: the profile (3,9,9,3) and the defaults. -/
def demoParams : Params := { Config.params with t0h := 3, t0l := 9, t1h := 9, t1l := 3 }

/-- A strip of two pixels, five index bits and a dim colour for off: the parameters R7 names that W leaves fixed. -/
def shortStrip : Params := { demoParams with ledCount := 2, idxW := 5, colorOff := ⟨0, 0, 1⟩ }

/-- RETRIGGER IGNORE (43 R197). -/
def ignoring : Params := { demoParams with retrigger := .ignore }

/-- The second profile of 95, section 2. -/
def otherParams : Params := { demoParams with t0h := 4, t0l := 8, t1h := 8, t1l := 5, tLatch := 600 }

/-- After reset and the INIT cycle (70 R293). -/
def waiting : State := { State.reset with params := demoParams, mode := .wait }

/-- Before the INIT edge. -/
def starting : State := { State.reset with params := demoParams }

/-- After a baseline tick with sample 1000. -/
def baselined : State := { waiting with prevSample := 1000, curSample := 1000, baselineValid := true }

/-- After a trigger at 100 ms with sample 1250, all red, its tick completed. -/
def redBlinking : State :=
  { baselined with
    fb := List.replicate 14 ⟨255, 0, 0⟩, blink := .blinking, blinkStart := 100, prevSample := 1250,
    curSample := 1250 }

/-- A sequencer position in a transmission of the red frame. -/
def sending (q : Machine.Seq) : State := { redBlinking with prevSample := 1000, mode := .tx, seq := q }

/-- The same with `tx_fault` at the present edge. -/
def sendingFaulty (q : Machine.Seq) : State := { sending q with pins := { txFault := true } }

/-- Halted for a sensor fault. -/
def haltedState : State := { redBlinking with mode := .halted, faultCode := .sensorFault }

/-- The next state, where there is one. -/
def after (i : Instr) (s : State) : Option State :=
  match exec i s with
  | .next t => some t
  | .fault _ => none
  | .refused _ => none

/-- The refusal, where there is one. -/
def refusalOf (i : Instr) (s : State) : Option Refusal :=
  match exec i s with
  | .next _ => none
  | .fault _ => none
  | .refused r => some r

/-- What the decoder gives, where it gives an instruction. -/
def decoded (x : Stimulus) : Option Instr := (decode demoParams x).toOption

/-! ### Ill-formed terms -/

theorem test_sample_above_range_is_ill_formed : wellFormed demoParams (.tick 32768 0) = false := by decide

theorem test_sample_below_range_is_ill_formed : wellFormed demoParams (.ctrlUpdate (-32769) 0) = false := by decide

theorem test_time_out_of_range_is_ill_formed :
    wellFormed demoParams (.tick 0 4294967296) = false ∧ wellFormed demoParams (.ctrlUpdate 0 4294967296) = false := by
  decide

theorem test_empty_pulse_is_ill_formed : wellFormed demoParams (.decode [⟨true, 3⟩, ⟨false, 0⟩]) = false := by decide

theorem test_short_snapshot_is_ill_formed : wellFormed demoParams (.transmit [0, 0, 0]) = false := by decide

theorem test_wide_index_is_ill_formed :
    wellFormed demoParams (.setPixel 256 1 2 3) = false ∧ wellFormed shortStrip (.setPixel 32 1 2 3) = false := by
  decide

theorem test_code_none_is_ill_formed : wellFormed demoParams (.halt .none) = false := by decide

theorem test_unassigned_is_ill_formed : wellFormed demoParams (.unassigned 0b10) = false := by decide

theorem test_extremes_are_well_formed :
    wellFormed demoParams (.tick 32767 4294967295) = true ∧ wellFormed demoParams (.tick (-32768) 0) = true := by decide

/-! ### Decoding: words written out from 30 R99, R100, R92, R93 and 95, section 9 -/

theorem test_decode_reset :
    [0b100, 0b101, 0b110, 0b111].map (fun c => decoded { word := .command c }) =
      [some .reset, some .reset, some .reset, some .reset] := by decide

theorem test_decode_nop : [0b000, 0b001].map (fun c => decoded { word := .command c }) = [some .nop, some .nop] := by
  decide

theorem test_decode_tick :
    decoded { word := .command 0b010, sample := 0x04E2, nowMs := 0x2774 } = some (.tick 1250 10100) ∧
    decoded { word := .command 0b010, sample := 0x8000, nowMs := 0xFFFFFF00 } = some (.tick (-32768) 4294967040) := by
  decide

theorem test_decode_tick_sfault :
    decoded { word := .command 0b011, sample := 0xFFFF, nowMs := 7 } = some .tickSfault := by decide

theorem test_decode_encode_bit :
    decoded { word := .operation 5 0b00000 } = some (.encodeBit false) ∧
    decoded { word := .operation 5 0b00001 } = some (.encodeBit true) := by decide

theorem test_decode_encode_byte : decoded { word := .operation 12 0b000100000010 } = some (.encodeByte 2) := by decide

theorem test_decode_list_operands :
    decoded { word := .operation 4 0b0010, bytes := [0, 255, 0] } = some (.encode [0, 255, 0]) ∧
    decoded { word := .operation 4 0b0011, train := [⟨true, 9⟩, ⟨false, 3⟩] } =
      some (.decode [⟨true, 9⟩, ⟨false, 3⟩]) ∧
    decoded { word := .operation 4 0b0100, bytes := [1] } = some (.transmit [1]) := by decide

theorem test_decode_set_pixel :
    decoded { word := .operation 36 0x5020A141E } = some (.setPixel 2 10 20 30) ∧
    decoded { word := .operation 36 0x5FF070707 } = some (.setPixel 255 7 7 7) := by decide

/-- 30 R97: the index is `u IDX_W`. -/
theorem test_decode_set_pixel_five_index_bits :
    (decode shortStrip { word := .operation 33 0x0BF0A141E }).toOption = some (.setPixel 31 10 20 30) := by decide

theorem test_decode_clear : decoded { word := .operation 4 0b0110 } = some .clear := by decide

theorem test_decode_fill : decoded { word := .operation 28 0x7FF0000 } = some (.fill 255 0 0) := by decide

theorem test_decode_snapshot : decoded { word := .operation 4 0b1000 } = some .snapshot := by decide

theorem test_decode_ctrl_update :
    decoded { word := .operation 4 0b1001, sample := 0xFF37, nowMs := 100 } = some (.ctrlUpdate (-201) 100) := by decide

theorem test_decode_tick_end : decoded { word := .operation 4 0b1010 } = some .tickEnd := by decide

theorem test_decode_halt :
    decoded { word := .operation 6 0b101101 } = some (.halt .initFault) ∧
    decoded { word := .operation 6 0b101110 } = some (.halt .sensorFault) ∧
    decoded { word := .operation 6 0b101111 } = some (.halt .txFault) ∧
    decoded { word := .operation 6 0b101100 } = some (.halt .none) := by decide

theorem test_decode_unassigned :
    [0b1100, 0b1101, 0b1110, 0b1111].map (fun v => decoded { word := .operation 4 v }) =
      [some (.unassigned 0b00), some (.unassigned 0b01), some (.unassigned 0b10), some (.unassigned 0b11)] := by decide

theorem test_decode_wire_symbols :
    decoded { word := .data 1 0 } = some .sym0 ∧ decoded { word := .data 1 1 } = some .sym1 ∧
    decoded { word := .lineLow } = some .latch ∧ decoded { word := .data 24 0x140A1E } = some (.pixelWord 20 10 30) := by
  decide

theorem test_decode_rejects_by_name :
    decode demoParams { word := .operation 4 0b0101 } = .error (.operation 4 0b0101) ∧
    decode demoParams { word := .operation 28 0x8000000 } = .error (.operation 28 0x8000000) ∧
    decode demoParams { word := .operation 36 0x15000000000 } = .error (.operation 36 0x15000000000) ∧
    decode demoParams { word := .data 2 1 } = .error (.data 2 1) := by
  exact ⟨rfl, rfl, rfl, rfl⟩

/-- The order of precedence of log 6. -/
theorem test_table_words :
    decodeTableWord 8 0b100 = some .reset ∧ decodeTableWord 8 0b1000 = some .snapshot ∧
    decodeTableWord 8 0b101110 = some (.halt .sensorFault) ∧ decodeTableWord 40 0x5020A141E = some (.setPixel 2 10 20 30) ∧
    decodeTableWord 24 0x00FF00 = some (.pixelWord 0 255 0) := by decide

/-! ### Each instruction once or twice -/

/-- 95 V65: whatever stood there, 10 R37. -/
theorem test_reset_from_mid_frame :
    (after .reset (sending ⟨.low, 0, 7, 2⟩)).map (fun t => (t.mode, t.blink, t.curSample, t.baselineValid, dout t)) =
      some (.init, .idle, 0, false, false) := by decide

/-- 95 V67: reset wins over `tx_fault`. -/
theorem test_reset_wins : (after .reset (sendingFaulty ⟨.high, 0, 7, 2⟩)).map (·.faultCode) = some .none := by decide

/-- 95 V26, cycle 13 to 14: the next bit follows with no idle cycle between. -/
theorem test_nop_next_bit :
    (after .nop (sending ⟨.low, 0, 7, 1⟩)).map (·.seq) = some ⟨.high, 0, 6, 3⟩ := by decide

/-- 95 V26, cycle 97 to 98: byte 1 of the red frame is FF. -/
theorem test_nop_next_byte :
    (after .nop (sending ⟨.low, 0, 0, 1⟩)).map (·.seq) = some ⟨.high, 1, 7, 9⟩ := by decide

/-- 95 V41: 1000, then 1201 at 100 ms. -/
theorem test_tick_triggers :
    (after (.tick 1201 100) baselined).map (fun t => (t.blink, t.blinkStart, t.fb[13]?, t.mode, t.seq.phase)) =
      some (.blinking, 100, some ⟨255, 0, 0⟩, .tx, .load) := by decide

/-- 95 V64: a tick in cycle 11 is a NOP. -/
theorem test_tick_while_busy :
    (after (.tick 9999 50) (sending ⟨.low, 0, 7, 3⟩)).map (fun t => (t.seq, t.curSample)) =
      some (⟨.low, 0, 7, 2⟩, 1250) := by decide

/-- 95 V61. -/
theorem test_tick_sfault_fatal :
    (after .tickSfault redBlinking).map (fun t => (t.mode, t.faultCode, t.blink, t.blinkStart, t.prevSample)) =
      some (.halted, .sensorFault, .blinking, 100, 1250) := by decide

/-- 95 V62. -/
theorem test_tick_sfault_tolerant :
    (after .tickSfault
        { redBlinking with params := { demoParams with sensorFaultPolicy := .tolerant } }).map
        (fun t => (t.mode, t.tickDone, t.sensorWarn, t.prevSample)) = some (.wait, true, true, 1250) := by decide

/-- 95 V1, V2. -/
theorem test_encode_bit :
    (after (.encodeBit false) waiting).map (·.result) = some (.pulses [⟨true, 3⟩, ⟨false, 9⟩]) ∧
    (after (.encodeBit true) waiting).map (·.result) = some (.pulses [⟨true, 9⟩, ⟨false, 3⟩]) := by decide

/-- 95 V6. -/
theorem test_encode_byte :
    (after (.encodeByte 0x02) waiting).map (·.result) =
      some (.pulses
        [⟨true, 3⟩, ⟨false, 9⟩, ⟨true, 3⟩, ⟨false, 9⟩, ⟨true, 3⟩, ⟨false, 9⟩, ⟨true, 3⟩, ⟨false, 9⟩,
         ⟨true, 3⟩, ⟨false, 9⟩, ⟨true, 3⟩, ⟨false, 9⟩, ⟨true, 9⟩, ⟨false, 3⟩, ⟨true, 3⟩, ⟨false, 9⟩]) := by decide

/-- 95 V8. -/
theorem test_encode_nothing : (after (.encode []) waiting).map (·.result) = some (.pulses []) := by decide

/-- 95 V11. -/
theorem test_decode_ones :
    (after (.decode ((List.replicate 8 [⟨true, 9⟩, ⟨false, 3⟩]).flatten)) waiting).map (·.result) =
      some (.bytes [0xFF]) := by decide

/-- 95 V12, V13, V14. -/
theorem test_decode_fails :
    (after (.decode ((List.replicate 7 [⟨true, 3⟩, ⟨false, 9⟩]).flatten)) waiting).map (·.result) = some .fail ∧
    (after (.decode ([⟨true, 5⟩, ⟨false, 7⟩] ++ (List.replicate 7 [⟨true, 3⟩, ⟨false, 9⟩]).flatten)) waiting).map
      (·.result) = some .fail ∧
    (after (.decode ((List.replicate 8 [⟨false, 9⟩, ⟨true, 3⟩]).flatten)) waiting).map (·.result) = some .fail := by
  decide

/-- 95 V28: a fault at the edge that ends the TX_LOAD cycle lets nothing on the wire. By 41 R148 the 48 zero bits of two
pixels and the latch last 48 * 12 + 500 ticks, of which the last is the cycle under way. -/
theorem test_transmit_and_faults :
    (after (.transmit (List.replicate 14 [0, 255, 0]).flatten)
        { sending ⟨.load, 0, 7, 0⟩ with pins := { txFaultAt := some 1 } }).map
        (fun t => (t.mode, t.faultCode, t.wire)) = some (.halted, .txFault, []) ∧
    (after (.transmit [0, 0, 0, 0, 0, 0])
        { sending ⟨.load, 0, 7, 0⟩ with params := shortStrip, fb := [⟨0, 0, 0⟩, ⟨0, 0, 0⟩] }).map
        (fun t => (t.mode, t.faultCode, ticksOf t.wire)) = some (.tx, .none, 48 * 12 + 499) := by
  decide +kernel

/-- 93 U3, and 41 R141: `require mode = TX`. -/
theorem test_transmit_refused :
    refusalOf (.transmit [1, 2, 3]) (sending ⟨.load, 0, 7, 0⟩) = some (.frameLength 3) ∧
    refusalOf (.transmit (List.replicate 42 0)) waiting = some .transmitOutsideTick := by decide

/-- 95 V30, V31. -/
theorem test_set_pixel :
    (after (.setPixel 0 1 2 3) waiting).map (fun t => (t.fb[0]?, t.fb[1]?)) = some (some ⟨1, 2, 3⟩, some ⟨0, 0, 0⟩) ∧
    (after (.setPixel 13 0xAA 0x55 0xF0) waiting).map (fun t => t.fb[13]?) = some (some ⟨170, 85, 240⟩) := by decide

/-- 95 V32, V33. -/
theorem test_set_pixel_out_of_range :
    after (.setPixel 14 9 9 9) waiting = some waiting ∧ after (.setPixel 255 7 7 7) waiting = some waiting := by decide

/-- 95 V36. -/
theorem test_clear : (after .clear redBlinking).map (·.fb) = some (List.replicate 14 ⟨0, 0, 0⟩) := by decide

/-- 95 V39. -/
theorem test_fill : (after (.fill 1 2 3) redBlinking).map (·.fb) = some (List.replicate 14 ⟨1, 2, 3⟩) := by decide

/-- 20 R76, R79; 70 R309; 60 R258: no operation writes the Frame Buffer or the Blink State in mode TX or HALTED. -/
theorem test_no_write_in_tx_or_halted :
    ∀ s ∈ [sending ⟨.high, 3, 2, 4⟩, haltedState],
      ∀ i ∈ [Instr.setPixel 0 1 2 3, .clear, .fill 1 2 3, .ctrlUpdate 9999 5, .tickEnd, .sym1], after i s = some s := by
  decide

/-- 95 V37. -/
theorem test_snapshot :
    (after .snapshot { waiting with fb := waiting.fb.set 0 ⟨1, 2, 3⟩ }).map (·.result) =
      some (.bytes ([0x02, 0x01, 0x03] ++ List.replicate 39 0)) := by decide

/-- 95 V48: no overflow. -/
theorem test_ctrl_update_extremes :
    (after (.ctrlUpdate 32767 100) { baselined with prevSample := -32768 }).map (·.blink) = some .blinking := by decide

/-- 95 V55: the window is measured across the wrap of the time. 43 R200 with another COLOR_OFF and strip: the window
expired. -/
theorem test_ctrl_update_wrap_and_expiry :
    (after (.ctrlUpdate 500 9743) { redBlinking with blinkStart := 4294967040, prevSample := 500 }).map
        (fun t => (t.blink, t.fb[0]?)) = some (.blinking, some ⟨0, 0, 0⟩) ∧
    (after (.ctrlUpdate 500 9744) { redBlinking with blinkStart := 4294967040, prevSample := 500 }).map (·.blink) =
      some .idle ∧
    (after (.ctrlUpdate 1250 10100) { redBlinking with params := shortStrip, fb := [⟨255, 0, 0⟩, ⟨255, 0, 0⟩] }).map
        (fun t => (t.blink, t.fb)) = some (.idle, [⟨0, 0, 1⟩, ⟨0, 0, 1⟩]) := by decide

/-- 95 P1, line 2: the sample of the tick becomes the reference. -/
theorem test_tick_end :
    (after .tickEnd { waiting with curSample := 1010 }).map (fun t => (t.prevSample, t.baselineValid)) =
      some (1010, true) := by decide

/-- 60 R254. -/
theorem test_halt :
    (after (.halt .txFault) (sending ⟨.high, 3, 2, 4⟩)).map (fun t => (t.mode, t.faultCode, t.seq.phase)) =
      some (.halted, .txFault, .idle) := by decide

/-- 60 R251: 00 is never raised. -/
theorem test_halt_none : refusalOf (.halt .none) waiting = some .haltWithoutCause := by decide

/-- 30 R102. -/
theorem test_unassigned : refusalOf (.unassigned 0b01) waiting = some .unassignedOperation := by decide

/-- 95, section 2 and 00 R11: the symbols as they stand on the wire, newest run first. -/
theorem test_wire_symbols :
    (after .sym0 waiting).map (·.wire) = some [⟨false, 9⟩, ⟨true, 3⟩] ∧
    (after .sym1 waiting).map (·.wire) = some [⟨false, 3⟩, ⟨true, 9⟩] := by decide

/-- 41 R147: the latch joins the low pulse before it (95 V25). -/
theorem test_latch_joins_the_last_low :
    (after .latch { waiting with wire := [⟨false, 3⟩, ⟨true, 9⟩] }).map (·.wire) =
      some [⟨false, 503⟩, ⟨true, 9⟩] := by decide

/-- 30 R96: red is `00 FF 00` on the wire. -/
theorem test_pixel_word :
    (after (.pixelWord 0 255 0) waiting).map (fun t => (ticksOf t.wire, t.wire.head?)) = some (288, some ⟨false, 9⟩) := by
  decide

/-! ### Witnesses: states and operands that meet the hypotheses of the statements -/

theorem witness_params :
    demoParams.Wf ∧ otherParams.Wf ∧ shortStrip.Wf ∧ ignoring.Wf :=
  ⟨by decide, by decide, by decide, by decide⟩

theorem witness_distinct_symbols : (demoParams.t0h, demoParams.t0l) ≠ (demoParams.t1h, demoParams.t1l) := by decide

theorem witness_CommandVectorDecodesByItsRows :
    (encode demoParams (.tick (-32768) 5)).word =
      .command (BitVec.ofBool false ++ BitVec.ofBool true ++ BitVec.ofBool false) ∧
    (encode demoParams .reset).word = .command (BitVec.ofBool true ++ BitVec.ofBool false ++ BitVec.ofBool false) := by
  decide

theorem witness_DecodeOfEncodeIsTheInstruction :
    wellFormed demoParams (.setPixel 255 255 255 255) = true ∧ wellFormed demoParams (.tick (-32768) 4294967295) = true ∧
    wellFormed demoParams (.transmit (List.replicate 42 0)) = true ∧ wellFormed demoParams (.halt .txFault) = true := by
  decide

theorem witness_OnlyTableLengthsDecodeAsOperations :
    (∃ x : Stimulus, x.word = .operation 36 (6 * 2 ^ 32 - 1) ∧
      decode demoParams x = .ok (.setPixel 255 255 255 255)) ∧
    ∃ x : Stimulus, x.word = .operation 33 (6 * 2 ^ 29 - 1) ∧
      decode shortStrip x = .ok (.setPixel 31 255 255 255) :=
  ⟨⟨{ word := .operation 36 (6 * 2 ^ 32 - 1) }, rfl, rfl⟩, ⟨{ word := .operation 33 (6 * 2 ^ 29 - 1) }, rfl, rfl⟩⟩

theorem witness_DecodedOperandsFitTheirPorts :
    decode demoParams { word := .command 0b010, sample := 0xFFFF, nowMs := 2 ^ 32 + 1 } = .ok (.tick (-1) 1) ∧
    decode demoParams { word := .operation 4 0b1001, sample := 0x7FFF, nowMs := 0 } = .ok (.ctrlUpdate 32767 0) :=
  ⟨rfl, rfl⟩

theorem witness_StepRunsTheDecodedInstruction :
    (∃ x rest, { waiting with script := [encode demoParams .tickSfault] }.script = x :: rest ∧
      decode demoParams x = .ok .tickSfault) ∧
    waiting.script = [] ∧ decode waiting.params (tableStimulus waiting.params 8 0b110) = .ok .reset :=
  ⟨⟨_, _, rfl, rfl⟩, rfl, rfl⟩

theorem witness_NopDoesNothingOfItsOwn :
    waiting.mode = .wait ∧ haltedState.mode = .halted ∧ starting.mode = .init ∧
    ((sendingFaulty ⟨.load, 0, 7, 0⟩).mode = .tx ∧ (sendingFaulty ⟨.load, 0, 7, 0⟩).pins.txFault = true) ∧
    ((sending ⟨.latch, 41, 0, 1⟩).mode = .tx ∧ (sending ⟨.latch, 41, 0, 1⟩).pins.txFault = false ∧
      (sending ⟨.latch, 41, 0, 1⟩).seq.phase ≠ .idle) := by decide

theorem witness_InitEdgeDecidesStartup :
    isCommandWithoutReset (.tick 5 5) = true ∧ isCommandWithoutReset .tickSfault = true ∧ starting.mode = .init ∧
    starting.pins.initFault = false ∧ { starting with pins := { initFault := true } }.pins.initFault = true := by decide

theorem witness_TickAcceptedInWait :
    waiting.mode = .wait ∧ baselined.mode = .wait ∧ redBlinking.mode = .wait := by decide

theorem witness_DiagnosticsOfAnAcceptedTick :
    baselined.mode = .wait ∧ baselined.baselineValid = true ∧ waiting.mode = .wait ∧ waiting.baselineValid = false := by
  decide

theorem witness_TickOutsideWaitIsNop :
    starting.mode ≠ .wait ∧ haltedState.mode ≠ .wait ∧ (sending ⟨.low, 0, 7, 3⟩).mode ≠ .wait := by decide

theorem witness_FailedReadHaltsOrSkips :
    (redBlinking.mode = .wait ∧ redBlinking.params.sensorFaultPolicy = .fatal) ∧
    ({ redBlinking with params := { demoParams with sensorFaultPolicy := .tolerant } }.params.sensorFaultPolicy =
      .tolerant) := by decide

theorem witness_LoadCycleStartsTheFirstBit :
    isCommandWithoutReset .nop = true ∧ (sending ⟨.load, 0, 7, 0⟩).mode = .tx ∧
    (sending ⟨.load, 0, 7, 0⟩).pins.txFault = false ∧ (sending ⟨.load, 0, 7, 0⟩).seq.phase = .load := by decide

theorem witness_HighPulseCountsDownThenFalls :
    isCommandWithoutReset (.tick 1 1) = true ∧
    ∀ q ∈ [(⟨.high, 0, 7, 3⟩ : Machine.Seq), ⟨.high, 0, 7, 2⟩, ⟨.high, 41, 0, 1⟩],
      (sending q).mode = .tx ∧ (sending q).pins.txFault = false ∧ (sending q).seq.phase = .high := by decide

/-- Counting; the last bit of a byte; the last bit of the frame; a bit inside the last wire byte. -/
theorem witness_LowPulseCountsDownThenNextBitOrLatch :
    (∀ q ∈ [(⟨.low, 0, 7, 2⟩ : Machine.Seq), ⟨.low, 0, 0, 1⟩, ⟨.low, 41, 0, 1⟩, ⟨.low, 41, 1, 1⟩],
      (sending q).mode = .tx ∧ (sending q).pins.txFault = false ∧ (sending q).seq.phase = .low ∧
        (sending q).seq.byteIdx < (sending q).params.frameBytes) ∧
    1 < (sending ⟨.low, 0, 7, 2⟩).seq.cnt ∧
    ((sending ⟨.low, 41, 0, 1⟩).seq.cnt ≤ 1 ∧
      (sending ⟨.low, 41, 0, 1⟩).seq.byteIdx = (sending ⟨.low, 41, 0, 1⟩).params.lastByte ∧
      (sending ⟨.low, 41, 0, 1⟩).seq.bitIdx = 0) ∧
    ¬ ((sending ⟨.low, 0, 0, 1⟩).seq.byteIdx = (sending ⟨.low, 0, 0, 1⟩).params.lastByte ∧
      (sending ⟨.low, 0, 0, 1⟩).seq.bitIdx = 0) ∧
    ¬ ((sending ⟨.low, 41, 1, 1⟩).seq.byteIdx = (sending ⟨.low, 41, 1, 1⟩).params.lastByte ∧
      (sending ⟨.low, 41, 1, 1⟩).seq.bitIdx = 0) := by decide

theorem witness_LatchCountsDownThenCompletesTheTick :
    ∀ q ∈ [(⟨.latch, 41, 0, 500⟩ : Machine.Seq), ⟨.latch, 41, 0, 2⟩, ⟨.latch, 41, 0, 1⟩],
      (sending q).mode = .tx ∧ (sending q).pins.txFault = false ∧ (sending q).seq.phase = .latch := by decide

/-- A command in mode TX, a command in mode WAIT that is no tick, and a reset. -/
theorem witness_EveryCommandRecordsTheCycleThatEnds :
    isCommand .nop = true ∧ isCommand .reset = true ∧ (sending ⟨.high, 0, 7, 1⟩).mode = .tx ∧
    (sending ⟨.high, 0, 7, 1⟩).seq.phase = .high ∧ (sending ⟨.high, 0, 7, 1⟩).mode ≠ .wait ∧ waiting.mode = .wait ∧
    Instr.nop ≠ .tick 1 1 := by decide

theorem witness_TxFaultHaltsInsteadOfStepping :
    ∀ q ∈ [(⟨.load, 0, 7, 0⟩ : Machine.Seq), ⟨.high, 2, 3, 1⟩, ⟨.low, 2, 3, 1⟩, ⟨.latch, 41, 0, 1⟩],
      (sendingFaulty q).mode = .tx ∧ (sendingFaulty q).pins.txFault = true := by decide

theorem witness_FaultPinsAreIgnoredElsewhere :
    isCommand .reset = true ∧ waiting.mode ≠ .tx ∧ waiting.mode ≠ .init ∧ starting.mode ≠ .tx ∧
    (sending ⟨.load, 0, 7, 0⟩).mode ≠ .init := by decide

theorem witness_CyclesOfATickAreTheWireTrace :
    (sending ⟨.load, 0, 7, 0⟩).params.Wf ∧ AtTickStart (sending ⟨.load, 0, 7, 0⟩) := by decide

/-- The first and the last cycle of the tick (95 V28: `@1` and `@4533`). -/
theorem witness_CutFrameIsAPrefixOfTheTrace :
    (sending ⟨.load, 0, 7, 0⟩).params.Wf ∧ AtTickStart (sending ⟨.load, 0, 7, 0⟩) ∧
    0 < frameCycles (sending ⟨.load, 0, 7, 0⟩) ∧ 4532 < frameCycles (sending ⟨.load, 0, 7, 0⟩) := by
  decide +kernel

theorem witness_AcceptedTickSendsItsOwnFrame :
    baselined.params.Wf ∧ baselined.mode = .wait ∧ baselined.script = [] := by decide

theorem witness_SameFrameBufferSameTrace :
    AtTickStart (sending ⟨.load, 0, 7, 0⟩) ∧
    AtTickStart { sending ⟨.load, 0, 7, 0⟩ with blink := .idle, prevSample := 3, tickDone := true } := by decide

theorem witness_EncodeEmitsEveryBitInOrder :
    ∀ m ∈ [0, 7, 8, 23], m / 8 < ([0x00, 0xFF, 0x00] : List Byte).length := by decide

/-- Without a fault, with a fault that is never seen, and with one at the first and the last edge of the tick. -/
theorem witness_TransmitPutsTheTrainOnTheWire :
    (sending ⟨.load, 0, 7, 0⟩).params.Wf ∧ (sending ⟨.load, 0, 7, 0⟩).mode = .tx ∧
    (sending ⟨.load, 0, 7, 0⟩).seq.phase = .load ∧ (sending ⟨.load, 0, 7, 0⟩).pins.txFaultAt = none ∧
    { sending ⟨.load, 0, 7, 0⟩ with pins := { txFaultAt := some 4534 } }.pins.txFaultAt = some 4534 ∧
    1 + ticksOf (pulsesOfBytes demoParams (snapshotOf demoParams redBlinking.fb)) + demoParams.tLatch < 4534 ∧
    ∀ n ∈ [1, 30, 4533], 1 ≤ n ∧
      n ≤ 1 + ticksOf (pulsesOfBytes demoParams (snapshotOf demoParams redBlinking.fb)) + demoParams.tLatch := by
  decide +kernel

theorem witness_TransmitIsEnteredByAnAcceptedTickOnly :
    waiting.params.Wf ∧ waiting.mode = .wait ∧ (List.replicate 42 (0 : Byte)).length = waiting.params.frameBytes ∧
    (List.replicate 41 (0 : Byte)).length ≠ waiting.params.frameBytes := by decide

theorem witness_FrameHasSixHundredSeventyTwoRuns :
    (sending ⟨.load, 0, 7, 0⟩).params.Wf ∧ (sending ⟨.load, 0, 7, 0⟩).mode = .tx ∧
    (sending ⟨.load, 0, 7, 0⟩).seq.phase = .load ∧ (sending ⟨.load, 0, 7, 0⟩).pins.txFaultAt = none ∧
    (sending ⟨.load, 0, 7, 0⟩).params.ledCount = 14 := by decide

theorem witness_FrameLengthCountsItsZeroBits :
    (sending ⟨.load, 0, 7, 0⟩).params.Wf ∧ (sending ⟨.load, 0, 7, 0⟩).mode = .tx ∧
    (sending ⟨.load, 0, 7, 0⟩).seq.phase = .load ∧ (sending ⟨.load, 0, 7, 0⟩).pins.txFaultAt = none := by decide

theorem witness_TransmitHasNoEffectOutsideItsContract :
    (List.replicate 41 (0 : Byte)).length ≠ starting.params.frameBytes ∧
    (List.replicate 43 (0 : Byte)).length ≠ starting.params.frameBytes ∧
    (List.replicate 42 (0 : Byte)).length = starting.params.frameBytes ∧ starting.mode = .init ∧
    waiting.mode = .wait ∧ haltedState.mode = .halted ∧ (sending ⟨.high, 3, 2, 4⟩).mode = .tx ∧
    (sending ⟨.high, 3, 2, 4⟩).seq.phase ≠ .load ∧
    List.replicate 42 0 ≠ snapshotOf demoParams (sending ⟨.load, 0, 7, 0⟩).fb := by decide

theorem witness_WireSymbolsEmitTheirLevels : waiting.mode = .wait ∧ (sending ⟨.high, 3, 2, 4⟩).mode ≠ .wait := by decide

theorem witness_FrameIsItsPixelWordsThenLatch :
    ∃ s : State, FbOk s ∧ s.mode = .wait ∧ s.wire = [] ∧
      s.script = (s.fb.map fun px => encode s.params (.pixelWord px.g px.r px.b)) ++ [encode s.params .latch] :=
  ⟨{ redBlinking with
      script := (redBlinking.fb.map fun px => encode demoParams (.pixelWord px.g px.r px.b)) ++
        [encode demoParams .latch] }, rfl, rfl, rfl, rfl⟩

theorem witness_SetPixelWritesThatPixelOnly :
    FbOk waiting ∧ waiting.mode = .wait ∧ 13 < waiting.params.ledCount := by decide

theorem witness_SetPixelOutOfRangeChangesNothing :
    waiting.params.ledCount ≤ 14 ∧ waiting.params.ledCount ≤ 255 := by decide

theorem witness_ClearAndFillPaintEveryPixel : FbOk redBlinking ∧ redBlinking.mode = .wait := by decide

theorem witness_SnapshotIsGreenRedBlueInIndexOrder : FbOk redBlinking ∧ 13 < redBlinking.params.ledCount := by decide

theorem witness_FrameBufferHasNoOtherWriter :
    (∃ t, exec (.setPixel 13 1 2 3) waiting = .next t ∧ t.fb ≠ waiting.fb) ∧
    (∃ t, exec (.tick 2000 0) baselined = .next t ∧ t.fb ≠ baselined.fb) ∧
    (∃ t, exec (.ctrlUpdate 2000 7) baselined = .next t ∧ t.blinkStart ≠ baselined.blinkStart) ∧
    (sending ⟨.high, 3, 2, 4⟩).mode ≠ .wait :=
  ⟨⟨_, rfl, by decide⟩, ⟨_, rfl, by decide⟩, ⟨_, rfl, by decide⟩, by decide⟩

/-- A state and a sample for each of the seven rows, the window's last and first excluded millisecond among them. -/
theorem witness_CtrlUpdateFollowsTheTransitionTable :
    (FbOk baselined ∧ baselined.mode = .wait ∧ FbOk redBlinking ∧ redBlinking.mode = .wait) ∧
    1 ≤ demoParams.blinkDuration ∧
    (baselined.blink = .idle ∧ trig baselined 1200 = false ∧ trig baselined 1201 = true) ∧
    (redBlinking.blink = .blinking ∧ trig redBlinking 1250 = false ∧ trig redBlinking 1451 = true) ∧
    (redBlinking.params.retrigger = .restart ∧
      { redBlinking with params := ignoring }.params.retrigger = .ignore) ∧
    (((10099 : Nat) : Int) - ((redBlinking.blinkStart : Nat) : Int)) % ((2 ^ demoParams.timeW : Nat) : Int) <
      (demoParams.blinkDuration : Int) ∧
    ¬ (((10100 : Nat) : Int) - ((redBlinking.blinkStart : Nat) : Int)) % ((2 ^ demoParams.timeW : Nat) : Int) <
      (demoParams.blinkDuration : Int) := by decide

theorem witness_BaselineTickNeverTriggers :
    FbOk waiting ∧ waiting.mode = .wait ∧ waiting.baselineValid = false ∧ waiting.blink = .idle := by decide

theorem witness_TriggerNeedsMoreThanTheThreshold :
    baselined.mode = .wait ∧ baselined.baselineValid = true ∧ baselined.blink = .idle ∧
    1 ≤ baselined.params.blinkDuration ∧
    1200 = baselined.prevSample + baselined.params.threshold ∧
    800 = baselined.prevSample - baselined.params.threshold ∧
    1201 = baselined.prevSample + (baselined.params.threshold + 1) ∧
    799 = baselined.prevSample - (baselined.params.threshold + 1) := by decide

theorem witness_WindowIsMeasuredAcrossAWrap :
    redBlinking.params.Wf ∧ FbOk redBlinking ∧ redBlinking.mode = .wait ∧ redBlinking.params.TimeOk 4294967040 ∧
    (∀ d ∈ [0, 9999, 10000, 4294967295], redBlinking.params.TimeOk d) ∧ redBlinking.blink = .blinking ∧
    redBlinking.baselineValid = true ∧ 9999 < redBlinking.params.blinkDuration ∧
    redBlinking.params.blinkDuration ≤ 10000 := by decide

/-- The last millisecond inside the window and the first outside it (95 V54). -/
theorem witness_WindowClosesAtTheFirstTickAfterIt :
    redBlinking.params.Wf ∧ FbOk redBlinking ∧ redBlinking.mode = .wait ∧ redBlinking.baselineValid = true ∧
    redBlinking.blink = .blinking ∧
    List.IsChain (fun a b : Int => (b - a).natAbs ≤ redBlinking.params.threshold)
      (redBlinking.prevSample ::
        ([(1450, 100), (1250, 10099)] ++ (1050, 10100) :: [(1250, 4000)] : List (Int × Nat)).map Prod.fst) ∧
    (∀ q ∈ ([(1450, 100), (1250, 10099)] : List (Int × Nat)), redBlinking.params.TimeOk q.2 ∧
      redBlinking.blinkStart ≤ q.2 ∧ q.2 < redBlinking.blinkStart + redBlinking.params.blinkDuration) ∧
    redBlinking.params.TimeOk 10100 ∧ redBlinking.blinkStart + redBlinking.params.blinkDuration ≤ 10100 := by decide

theorem witness_BlinkStartIsNotReadWhileIdle : baselined.blink = .idle ∧ 1 ≤ baselined.params.blinkDuration := by decide

theorem witness_ControllerReadsNoStaleData :
    FbOk waiting ∧ (List.replicate 14 ⟨9, 9, 9⟩ : FrameBuffer).length = waiting.params.ledCount ∧ waiting.mode = .wait ∧
    waiting.baselineValid = false := by decide

theorem witness_TickEndTakesTheSample : waiting.mode = .wait := by decide

theorem witness_HaltRaisesFatal :
    FaultCode.initFault ≠ .none ∧ FaultCode.sensorFault ≠ .none ∧ FaultCode.txFault ≠ .none ∧ starting.mode ≠ .halted ∧
    waiting.mode ≠ .halted ∧ (sending ⟨.load, 0, 7, 0⟩).mode ≠ .halted := by decide

theorem witness_HaltNeverNestsAndNeedsACause : FaultCode.txFault ≠ .none ∧ haltedState.mode = .halted := by decide

theorem witness_HaltedBlockIsFrozen :
    Inv haltedState ∧ haltedState.mode = .halted ∧ isCommandWithoutReset (.tick 5 5) = true := by decide

theorem witness_OnlyResetLeavesHalted :
    haltedState.mode = .halted ∧ (∃ t, exec (.halt .txFault) haltedState = .next t) ∧
    Instr.halt .txFault ≠ .reset := ⟨by decide, ⟨_, rfl⟩, by decide⟩

theorem witness_OnlyAnAcceptedTickStartsTransmitting :
    ∃ t, exec (.tick 1000 0) waiting = .next t ∧ waiting.mode ≠ .tx ∧ t.mode = .tx := ⟨_, rfl, by decide, rfl⟩

theorem witness_ParametersNeverChange : ∃ t, exec (.tick 1201 100) baselined = .next t := ⟨_, rfl⟩

theorem witness_EveryStepKeepsTheInvariant :
    (Inv waiting ∧ Inv redBlinking ∧ Inv haltedState ∧ Inv (sending ⟨.latch, 41, 0, 1⟩)) ∧
    ∃ t, step (sending ⟨.latch, 41, 0, 1⟩) = .next t :=
  ⟨⟨by decide, by decide, by decide, by decide⟩, ⟨_, rfl⟩⟩

theorem witness_CommandsAlwaysComplete :
    ∃ x rest cmd, { waiting with script := [encode demoParams .nop] }.script = x :: rest ∧ x.word = .command cmd :=
  ⟨_, _, _, rfl, rfl⟩

theorem witness_LineIsLowOutsideTransmission :
    Inv (sending ⟨.latch, 41, 0, 1⟩) ∧ (∃ t, step (sending ⟨.latch, 41, 0, 1⟩) = .next t ∧ t.mode ≠ .tx) :=
  ⟨by decide, ⟨_, rfl, by decide⟩⟩

end Sys2Proof.Tests
end

/-! ### What no instruction writes: the parameters (00 R7, 10 R35) -/

namespace Sys2Proof.Machine

@[simp] theorem nopEdge_params (s : State) : (nopEdge s).params = s.params := by rw [nopEdge_frame]

@[simp] theorem acceptTick_params (sample : Int) (now : Nat) (s : State) :
    (acceptTick sample now s).params = s.params := ctrlUpdate_params sample now (clearStrobes s)

@[simp] theorem resetEdge_params (s : State) : (resetEdge s).params = s.params := recordTick_params s

@[simp] theorem haltedWith_params (code : FaultCode) (wire : List Pulse) (s : State) :
    (haltedWith code wire s).params = s.params := rfl

@[simp] theorem lastLatchCycle_params (wire : List Pulse) (s : State) :
    (lastLatchCycle wire s).params = s.params := rfl

/-- In the cases where `Effect` names the fields written, `params` is not among them; in the others the next state is a
named update. -/
theorem Effect.params_eq {i : Instr} {s t : State} (h : Effect i s t) : t.params = s.params := by
  cases h with
  | reset _ ht => simp [ht]
  | edge _ ht => simp [ht]
  | accept _ _ _ _ ht => simp [ht]
  | sensorHalt _ _ _ ht => simp [ht]
  | sensorSkip _ _ _ ht => simp [ht]
  | ctrl _ _ _ _ ht => simp [ht]
  | tickEnd _ _ ht => simp [ht]
  | transmit _ _ _ ht =>
    obtain ⟨w, rfl⟩ := ht
    simp
  | halt _ _ _ hh ht =>
    by_cases hm : s.mode = .halted
    · rw [hh hm]
    · obtain ⟨w, rfl⟩ := ht hm
      simp
  | paint _ _ _ ht => rw [ht]
  | wire _ _ ht => rw [ht]
  | value _ ht => rw [ht]

/-- Settles O56: the inversion lemma of `exec` names everything a next state may differ in, and the parameters are not
part of it. -/
theorem parametersNeverChange : Obligations.ParametersNeverChange := fun _ _ _ h => (effect_of_exec h).params_eq

end Sys2Proof.Machine

/-! ### The invariant: what each update of the state keeps -/

namespace Sys2Proof.Machine

/-- The pulses of a bit last at least one tick and fit the down-counter (00 R7). -/
theorem durationOk_highTicks {p : Params} (h : p.Wf) (v : Bool) : p.DurationOk (highTicks p v) := by
  obtain ⟨⟨h0, -, h1, -⟩, -⟩ := h
  cases v <;> assumption

theorem durationOk_lowTicks {p : Params} (h : p.Wf) (v : Bool) : p.DurationOk (lowTicks p v) := by
  obtain ⟨⟨-, h0, -, h1⟩, -⟩ := h
  cases v <;> assumption

theorem durationOk_tLatch {p : Params} (h : p.Wf) : p.DurationOk p.tLatch := by
  obtain ⟨-, -, ⟨hl, hu⟩, -⟩ := h
  exact ⟨by omega, hu⟩

/-- A strip has a last byte (20 R62). -/
theorem lastByte_lt_frameBytes {p : Params} (h : p.Wf) : p.lastByte < p.frameBytes := by
  obtain ⟨-, -, -, -, -, -, hl, -⟩ := h
  unfold Params.lastByte Params.frameBytes
  omega

theorem sampleOk_zero (p : Params) : p.SampleOk 0 := by
  have : 0 < 2 ^ p.sampleW := Nat.two_pow_pos _
  simp only [Params.SampleOk]
  omega

theorem timeOk_zero (p : Params) : p.TimeOk 0 := Nat.two_pow_pos _

/-- The sequencer at rest is a position for every mode but TX (41 R150). -/
theorem seqOk_of_rest {s : State} (h : s.params.Wf) (hm : s.mode ≠ .tx) (hs : s.seq = Seq.rest) : SeqOk s := by
  have hb : 0 < s.params.frameBytes := Nat.zero_lt_of_lt (lastByte_lt_frameBytes h)
  simp [SeqOk, Seq.rest, hm, hs, hb]

/-- A position at which the line is held for `cnt` more ticks: in a high or low pulse, or at the last byte in the
latch (41 R152 to R155). -/
def CountsDown (p : Params) (q : Seq) : Prop :=
  (q.phase = .high ∨ q.phase = .low ∨ q.phase = .latch ∧ q.byteIdx = p.lastByte ∧ q.bitIdx = 0) ∧
    p.DurationOk q.cnt ∧ q.byteIdx < p.frameBytes

/-- The positions of mode TX: TX_LOAD, and those that count down (41 R150). -/
theorem seqOk_iff_of_tx {s : State} (h : s.params.Wf) (hm : s.mode = .tx) :
    SeqOk s ↔ s.seq = ⟨.load, 0, 7, 0⟩ ∨ CountsDown s.params s.seq := by
  have hb : 0 < s.params.frameBytes := Nat.zero_lt_of_lt (lastByte_lt_frameBytes h)
  constructor
  · rintro ⟨-, hidle, hload, hlatch, hcnt, hlt, hbyte⟩
    cases hp : s.seq.phase
    · exact absurd hp (hidle hm)
    · exact .inl (hload hp)
    · exact .inr ⟨.inl hp, ⟨hcnt (.inl hp), hlt⟩, hbyte⟩
    · exact .inr ⟨.inr (.inl hp), ⟨hcnt (.inr (.inl hp)), hlt⟩, hbyte⟩
    · exact .inr ⟨.inr (.inr ⟨hp, hlatch hp⟩), ⟨hcnt (.inr (.inr hp)), hlt⟩, hbyte⟩
  · rintro (hs | ⟨hp | hp | ⟨hp, hlast, hbit⟩, ⟨hone, hlt⟩, hbyte⟩)
    · simp [SeqOk, hm, hs, hb]
    · simp [SeqOk, hm, hp, hone, hlt, hbyte]
    · simp [SeqOk, hm, hp, hone, hlt, hbyte]
    · simp [SeqOk, hm, hp, hlast, hbit, hone, hlt, lastByte_lt_frameBytes h]

/-! ### The invariant under each named update -/

/-- The strobes are 0 outside mode WAIT (10 R28). -/
theorem strobes_of_not_wait {s : State} (h : StrobesOk s) (hm : s.mode ≠ .wait) :
    s.tickDone = false ∧ s.sensorWarn = false := by
  obtain ⟨hdone, hwarn⟩ := h
  exact ⟨Bool.eq_false_iff.2 fun hd => hm (hdone hd), Bool.eq_false_iff.2 fun hw => hm (hdone (hwarn hw).1)⟩

theorem inv_clearStrobes {s : State} (h : Inv s) : Inv (clearStrobes s) := by
  obtain ⟨hwf, hfb, hseq, hfault, -, hregs⟩ := h
  exact ⟨hwf, hfb, hseq, hfault, ⟨nofun, nofun⟩, hregs⟩

theorem inv_recordTick {s : State} (h : Inv s) : Inv (recordTick s) := by
  rw [recordTick_eq]
  split
  · exact h
  · exact h

/-- A fatal fault has a cause and brings the sequencer to rest (60 R254). -/
theorem inv_haltedWith {s : State} {code : FaultCode} (wire : List Pulse) (h : Inv s) (hc : code ≠ .none) :
    Inv (haltedWith code wire s) := by
  obtain ⟨hwf, hfb, -, -, -, hregs⟩ := h
  refine ⟨hwf, hfb, seqOk_of_rest hwf nofun rfl, ?_, ⟨nofun, nofun⟩, hregs⟩
  exact ⟨fun h0 => absurd h0 hc, fun hm => absurd rfl hm⟩

theorem inv_raiseFatal {s : State} {code : FaultCode} (h : Inv s) (hc : code ≠ .none) : Inv (raiseFatal code s) := by
  by_cases hm : s.mode = .halted
  · rw [raiseFatal_of_halted hm]
    exact h
  · rw [raiseFatal_of_not_halted hm]
    exact inv_haltedWith s.wire h hc

/-- A reset block meets the invariant whatever it was before, if its parameters are legal (70 R290). -/
theorem inv_resetEdge {s : State} (h : s.params.Wf) : Inv (resetEdge s) := by
  have hp : (resetEdge s).params = s.params := resetEdge_params s
  have hwf : (resetEdge s).params.Wf := hp ▸ h
  refine ⟨hwf, ?_, seqOk_of_rest hwf nofun rfl, ⟨nofun, fun _ => rfl⟩, ⟨nofun, nofun⟩, ?_⟩
  · exact List.length_replicate
  · exact ⟨timeOk_zero _, sampleOk_zero _, sampleOk_zero _⟩

theorem inv_tickEnd {s : State} (h : Inv s) : Inv (tickEnd s) := by
  obtain ⟨hwf, hfb, hseq, hfault, hstrobes, ⟨htime, -, hcur⟩⟩ := h
  exact ⟨hwf, hfb, hseq, hfault, hstrobes, ⟨htime, hcur, hcur⟩⟩

/-- The completion edge (41 R155). -/
theorem inv_completeTick {s : State} (h : Inv s) (hm : s.mode = .tx) : Inv (completeTick s) := by
  obtain ⟨hwf, hfb, -, hfault, hstrobes, hregs⟩ := inv_tickEnd h
  obtain ⟨-, hwarn⟩ := strobes_of_not_wait hstrobes (by simp [hm])
  have hnone : s.faultCode = .none := hfault.2 (by simp [hm])
  exact ⟨hwf, hfb, seqOk_of_rest hwf nofun rfl, ⟨nofun, fun _ => hnone⟩,
    ⟨fun _ => rfl, fun hw => absurd (hwarn.symm.trans hw) nofun⟩, hregs⟩

/-- In mode TX a position that counts down keeps the invariant (41 R150). -/
theorem inv_with_seq {s : State} {q : Seq} (h : Inv s) (hm : s.mode = .tx) (hq : CountsDown s.params q) :
    Inv { s with seq := q } := by
  obtain ⟨hwf, hfb, -, hfault, hstrobes, hregs⟩ := h
  exact ⟨hwf, hfb, (seqOk_iff_of_tx (s := { s with seq := q }) hwf hm).2 (.inr hq), hfault, hstrobes, hregs⟩

/-- One tick of a position that counts down and is not at its end. -/
theorem CountsDown.pred {p : Params} {q : Seq} (h : CountsDown p q) (hc : 1 < q.cnt) :
    CountsDown p ⟨q.phase, q.byteIdx, q.bitIdx, q.cnt - 1⟩ := by
  obtain ⟨hp, ⟨-, hd⟩, hb⟩ := h
  exact ⟨hp, ⟨by simp only; omega, by simp only; omega⟩, hb⟩

/-- Every step of the sequencer in mode TX, the completion edge included (41 R151 to R155). -/
theorem inv_seqEdge {s : State} (h : Inv s) (hm : s.mode = .tx) : Inv (seqEdge s) := by
  obtain ⟨hwf, -, hseq, -⟩ := id h
  rcases (seqOk_iff_of_tx hwf hm).1 hseq with hload | hcount
  · rw [seqEdge_of_load (by rw [hload])]
    exact inv_with_seq h hm ⟨.inl rfl, durationOk_highTicks hwf _, Nat.zero_lt_of_lt (lastByte_lt_frameBytes hwf)⟩
  · obtain ⟨hp | hp | ⟨hp, hlast, hbit⟩, -, hbyte⟩ := id hcount
    · rw [seqEdge_of_high hp]
      refine inv_with_seq h hm ?_
      split
      · next hc => exact hp ▸ hcount.pred hc
      · exact ⟨.inr (.inl rfl), durationOk_lowTicks hwf _, hbyte⟩
    · rw [seqEdge_of_low hp]
      refine inv_with_seq h hm ?_
      split
      · next hc => exact hp ▸ hcount.pred hc
      · rcases successor_cases hbyte s.seq.bitIdx with ⟨hn, -, -⟩ | ⟨k, j, hn, hk, -⟩
        · rw [hn]
          exact ⟨.inr (.inr ⟨rfl, rfl, rfl⟩), durationOk_tLatch hwf, lastByte_lt_frameBytes hwf⟩
        · rw [hn]
          exact ⟨.inl rfl, durationOk_highTicks hwf _, hk⟩
    · by_cases hc : 1 < s.seq.cnt
      · rw [seqEdge_of_latch_count hp hc]
        refine inv_with_seq h hm ?_
        rw [← hp, ← hlast, ← hbit]
        exact hcount.pred hc
      · rw [seqEdge_of_latch_done hp (Nat.le_of_not_lt hc)]
        exact inv_completeTick h hm

/-- An edge without a command, mode by mode (44 R238). -/
theorem inv_nopEdge {s : State} (h : Inv s) : Inv (nopEdge s) := by
  rcases mode_cases s.mode with hm | hm | hm | hm
  · rw [nopEdge_of_init hm]
    split
    · exact inv_raiseFatal (inv_clearStrobes h) nofun
    · obtain ⟨hwf, hfb, hseq, hfault, -, hregs⟩ := h
      have hrest : s.seq = Seq.rest := hseq.1 (by simp [hm])
      have hnone : s.faultCode = .none := hfault.2 (by simp [hm])
      exact ⟨hwf, hfb, seqOk_of_rest hwf nofun hrest, ⟨nofun, fun _ => hnone⟩, ⟨nofun, nofun⟩, hregs⟩
  · rw [nopEdge_of_wait hm]
    exact inv_clearStrobes h
  · have hrecord : Inv (clearStrobes (recordTick s)) := inv_clearStrobes (inv_recordTick h)
    cases hf : s.pins.txFault
    · rw [nopEdge_of_tx hm hf]
      exact inv_seqEdge hrecord (by simp [hm])
    · rw [nopEdge_of_tx_fault hm hf]
      exact inv_raiseFatal hrecord nofun
  · rw [nopEdge_of_halted hm]
    exact inv_clearStrobes h

theorem inv_with_fb {s : State} {fb : FrameBuffer} (h : Inv s) (hl : fb.length = s.fb.length) :
    Inv { s with fb := fb } := by
  obtain ⟨hwf, hfb, hrest⟩ := h
  exact ⟨hwf, hl.trans hfb, hrest⟩

@[simp] theorem length_ctrlUpdate_fb (cur : Int) (now : Nat) (s : State) :
    (ctrlUpdate cur now s).fb.length = s.fb.length := by
  rcases ctrlUpdate_cases cur now s with ⟨-, h⟩ | ⟨-, h⟩ <;> rw [h, length_fbFill]

/-- The start of a window is a time of its width, if the tick's time is (43 R191). -/
theorem inv_ctrlUpdate {s : State} (cur : Int) {now : Nat} (h : Inv s) (ht : s.params.TimeOk now) :
    Inv (ctrlUpdate cur now s) := by
  obtain ⟨hwf, hfb, hseq, hfault, hstrobes, hstart, hsamples⟩ := h
  have hfb' : (ctrlUpdate cur now s).fb.length = s.params.ledCount := (length_ctrlUpdate_fb cur now s).trans hfb
  have hstart' : s.params.TimeOk (ctrlUpdate cur now s).blinkStart := by
    rcases ctrlUpdate_blinkStart cur now s with hb | hb <;> rw [hb] <;> assumption
  rw [ctrlUpdate_frame]
  exact ⟨hwf, hfb', hseq, hfault, hstrobes, hstart', hsamples⟩

/-- The accept edge of a tick (44 R236). -/
theorem inv_acceptTick {s : State} {sample : Int} {now : Nat} (h : Inv s) (hm : s.mode = .wait)
    (hx : s.params.SampleOk sample) (ht : s.params.TimeOk now) : Inv (acceptTick sample now s) := by
  have hp : (acceptTick sample now s).params = s.params := acceptTick_params sample now s
  obtain ⟨hwf, hfb, -, hfault, hstrobes, hstart, hprev, -⟩ := inv_ctrlUpdate sample (inv_clearStrobes h) ht
  have hnone := hfault.2 (by simp [hm])
  have hseq : SeqOk (acceptTick sample now s) :=
    (seqOk_iff_of_tx (s := acceptTick sample now s) hwf rfl).2 (.inl rfl)
  refine ⟨hwf, hfb, hseq, ⟨nofun, fun _ => hnone⟩, ?_, hstart, hprev, hp ▸ hx⟩
  simp [StrobesOk, acceptTick]

/-- A failed read that the policy tolerates (60 R256). -/
theorem inv_sensorSkip {s : State} (h : Inv s) (hm : s.mode = .wait) (hp : s.params.sensorFaultPolicy = .tolerant) :
    Inv { s with tickDone := true, sensorWarn := true } := by
  obtain ⟨hwf, hfb, hseq, hfault, -, hregs⟩ := h
  exact ⟨hwf, hfb, hseq, hfault, ⟨fun _ => hm, fun _ => ⟨rfl, hp⟩⟩, hregs⟩

/-- The last cycle of the latch, where TRANSMIT of the tick in progress ends (41 R142). -/
theorem inv_lastLatchCycle {s : State} (wire : List Pulse) (h : Inv s) (hm : s.mode = .tx) :
    Inv (lastLatchCycle wire s) := by
  obtain ⟨hwf, -⟩ := id h
  obtain ⟨hle, hlt⟩ := durationOk_tLatch hwf
  have hone : s.params.DurationOk 1 := ⟨Nat.le_refl 1, Nat.lt_of_le_of_lt hle hlt⟩
  exact inv_with_seq (s := clearStrobes s) (inv_clearStrobes h) hm
    ⟨.inr (.inr ⟨rfl, rfl, rfl⟩), hone, lastByte_lt_frameBytes hwf⟩

/-! ### The invariant under every step -/

/-- The operands of TICK and CTRL_UPDATE are values of their ports (44 R231). -/
def OperandsOk (p : Params) : Instr → Prop
  | .tick sample now => p.SampleOk sample ∧ p.TimeOk now
  | .ctrlUpdate cur now => p.SampleOk cur ∧ p.TimeOk now
  | _ => True

/-- A sample read from its port is a value of its width (44 R231). -/
theorem sampleOk_sampleOperand (p : Params) (x : Stimulus) : p.SampleOk (sampleOperand p x) :=
  sampleOk_signedOf p x.sample

theorem operandsOk_decodeCommand (p : Params) (cmd : BitVec 3) (x : Stimulus) :
    OperandsOk p (decodeCommand p cmd x) := by
  unfold decodeCommand
  split_ifs
  · trivial
  · trivial
  · exact ⟨sampleOk_sampleOperand p x, timeOk_timeOperand p x⟩
  · trivial

/-- Of the operations only CTRL_UPDATE reads the ports (30 R100). -/
theorem operandsOk_of_decodeOperation {p : Params} {len val : Nat} {x : Stimulus} {i : Instr}
    (h : decodeOperation p len val x = .ok i) : OperandsOk p i := by
  have hports : OperandsOk p (.ctrlUpdate (sampleOperand p x) (timeOperand p x)) :=
    ⟨sampleOk_sampleOperand p x, timeOk_timeOperand p x⟩
  unfold decodeOperation at h
  simp only at h
  repeat' split at h
  all_goals cases h
  any_goals exact hports
  all_goals trivial

theorem operandsOk_of_decodeData {p : Params} {len val : Nat} {i : Instr} (h : decodeData len val = .ok i) :
    OperandsOk p i := by
  unfold decodeData at h
  repeat' split at h
  all_goals cases h
  all_goals trivial

/-- What the decoder takes from the ports fits them (44 R231). -/
theorem operandsOk_of_decode {p : Params} {x : Stimulus} {i : Instr} (h : decode p x = .ok i) : OperandsOk p i := by
  unfold decode at h
  split at h
  · cases h
    exact operandsOk_decodeCommand p _ x
  · exact operandsOk_of_decodeOperation h
  · exact operandsOk_of_decodeData h
  · cases h
    trivial

/-- Every instruction whose operands fit their ports keeps the invariant. -/
theorem Effect.inv {i : Instr} {s t : State} (h : Effect i s t) (hs : Inv s) (hi : OperandsOk s.params i) : Inv t := by
  cases h with
  | reset _ ht => exact ht ▸ inv_resetEdge hs.1
  | edge _ ht => exact ht ▸ inv_nopEdge hs
  | accept sample now hi' hm ht =>
    subst hi'
    exact ht ▸ inv_acceptTick hs hm hi.1 hi.2
  | sensorHalt _ _ _ ht => exact ht ▸ inv_raiseFatal (inv_clearStrobes hs) nofun
  | sensorSkip _ hm hp ht => exact ht ▸ inv_sensorSkip hs hm hp
  | ctrl cur now hi' _ ht =>
    subst hi'
    exact ht ▸ inv_ctrlUpdate cur hs hi.2
  | tickEnd _ _ ht => exact ht ▸ inv_tickEnd hs
  | transmit _ hm _ ht =>
    obtain ⟨w, rfl⟩ := ht
    exact inv_lastLatchCycle w hs hm
  | halt _ _ hc hh ht =>
    by_cases hm : s.mode = .halted
    · exact hh hm ▸ hs
    · obtain ⟨w, rfl⟩ := ht hm
      exact inv_haltedWith w hs hc
  | paint _ _ hl ht => exact ht ▸ inv_with_fb hs hl
  | wire _ _ ht => exact ht ▸ hs
  | value _ ht => exact ht ▸ hs

/-- Taking an item writes the host's side alone (assumption log 1). -/
theorem fetch_frame (s : State) :
    (fetch s).2 = { s with script := (fetch s).2.script, pins := (fetch s).2.pins } := by
  unfold fetch
  split <;> rfl

/-- A step that answers a next state runs the instruction the fetched item decodes to. -/
theorem exec_of_step {s t : State} (h : step s = .next t) :
    ∃ i, decode s.params (fetch s).1 = .ok i ∧ exec i (fetch s).2 = .next t := by
  unfold step at h
  split at h
  · next i hd => exact ⟨i, hd, h⟩
  · cases h

/-- Settles O58: the decoder hands `exec` operands of their widths, taking an item touches no register, and every
effect an instruction can have keeps the invariant. -/
theorem everyStepKeepsTheInvariant : Obligations.EveryStepKeepsTheInvariant := by
  intro s t hs h
  obtain ⟨i, hd, hx⟩ := exec_of_step h
  rw [fetch_frame] at hx
  exact (effect_of_exec hx).inv hs (operandsOk_of_decode hd)

/-- Settles O60: outside mode TX the invariant puts the sequencer at rest. -/
theorem lineIsLowOutsideTransmission : Obligations.LineIsLowOutsideTransmission := by
  intro s t hs h hm
  obtain ⟨-, -, ⟨hrest, -⟩, -⟩ := everyStepKeepsTheInvariant s t hs h
  rw [dout, hrest hm]
  rfl

/-- Settles O57: a reset edge meets the invariant under any legal parameters, and `State.reset` is the state after
one. -/
theorem resetStateMeetsTheInvariant : Obligations.ResetStateMeetsTheInvariant :=
  inv_resetEdge (s := State.reset) Config.params_wf

/-! ### RESET (10 R37) -/

/-- Settles O7: `resetBlock` writes every element of the block, and the record of the wire taken before it none of
them. -/
theorem resetLeavesTheResetState : Obligations.ResetLeavesTheResetState := by
  intro s
  refine ⟨resetEdge s, rfl, ?_⟩
  simp [resetEdge, Pixel.off, Seq.rest, dout, busy, halted]

/-! ### The writers of the Frame Buffer and the Blink State (10 R20, R21) -/

/-- The Frame Buffer and the Blink State are those of `s`. -/
def SameDisplay (s t : State) : Prop := t.fb = s.fb ∧ t.blink = s.blink ∧ t.blinkStart = s.blinkStart

/-- RESET, and in mode WAIT the operations that paint and the tick that is accepted (42 R170). -/
def IsWriter (i : Instr) (s : State) : Prop :=
  i = .reset ∨
    (s.mode = .wait ∧
      ((∃ index r g b, i = .setPixel index r g b ∧ index < s.params.ledCount) ∨ i = .clear ∨
        (∃ r g b, i = .fill r g b) ∨ (∃ cur now, i = .ctrlUpdate cur now) ∨ ∃ sample now, i = .tick sample now))

theorem sameDisplay_raiseFatal (code : FaultCode) (s : State) : SameDisplay s (raiseFatal code s) := by
  simp [SameDisplay]

theorem sameDisplay_nopEdge (s : State) : SameDisplay s (nopEdge s) := by
  rw [nopEdge_frame]
  exact ⟨rfl, rfl, rfl⟩

/-- Every effect is a writer's, or leaves the display as it was. -/
theorem Effect.writer {i : Instr} {s t : State} (h : Effect i s t) : IsWriter i s ∨ SameDisplay s t := by
  cases h with
  | reset hi _ => exact .inl (.inl hi)
  | edge _ ht => exact .inr (ht ▸ sameDisplay_nopEdge s)
  | accept sample now hi hm _ => exact .inl (.inr ⟨hm, .inr (.inr (.inr (.inr ⟨sample, now, hi⟩)))⟩)
  | sensorHalt _ _ _ ht => exact .inr (ht ▸ sameDisplay_raiseFatal .sensorFault (clearStrobes s))
  | sensorSkip _ _ _ ht => exact .inr (ht ▸ ⟨rfl, rfl, rfl⟩)
  | ctrl cur now hi hm _ => exact .inl (.inr ⟨hm, .inr (.inr (.inr (.inl ⟨cur, now, hi⟩)))⟩)
  | tickEnd _ _ ht => exact .inr (ht ▸ ⟨rfl, rfl, rfl⟩)
  | transmit _ _ _ ht =>
    obtain ⟨w, rfl⟩ := ht
    exact .inr ⟨rfl, rfl, rfl⟩
  | halt _ _ _ hh ht =>
    by_cases hm : s.mode = .halted
    · exact .inr (hh hm ▸ ⟨rfl, rfl, rfl⟩)
    · obtain ⟨w, rfl⟩ := ht hm
      exact .inr ⟨rfl, rfl, rfl⟩
  | paint hi hm _ _ =>
    rcases hi with hset | hclear | hfill
    · exact .inl (.inr ⟨hm, .inl hset⟩)
    · exact .inl (.inr ⟨hm, .inr (.inl hclear)⟩)
    · exact .inl (.inr ⟨hm, .inr (.inr (.inl hfill))⟩)
  | wire _ _ ht => exact .inr (ht ▸ ⟨rfl, rfl, rfl⟩)
  | value _ ht => exact .inr (ht ▸ ⟨rfl, rfl, rfl⟩)

/-- An operation issued alone outside mode WAIT is dropped whole (assumption log 11). -/
theorem next_betweenTicks_of_not_wait {f : State → State} {s : State} (h : s.mode ≠ .wait) :
    (.next (betweenTicks f s) : Host.Outcome State Fault Refusal) = .next s :=
  congrArg _ (betweenTicks_of_not_wait h)

/-- Settles O41: the writers are read off the inversion lemma of `exec`, and each operation is gated by
`betweenTicks`. -/
theorem frameBufferHasNoOtherWriter : Obligations.FrameBufferHasNoOtherWriter := by
  refine ⟨fun i s t h hchanged => ?_, fun s hm => ?_⟩
  · rcases (effect_of_exec h).writer with hw | ⟨hfb, hblink, hstart⟩
    · exact hw
    · simp [hfb, hblink, hstart] at hchanged
  · exact ⟨fun _ _ _ _ => next_betweenTicks_of_not_wait hm, next_betweenTicks_of_not_wait hm,
      fun _ _ _ => next_betweenTicks_of_not_wait hm, fun _ _ => next_betweenTicks_of_not_wait hm,
      next_betweenTicks_of_not_wait hm⟩

/-! ### What the controller does not read (10 R24 to R26) -/

theorem exec_ctrlUpdate_of_wait {s : State} (cur : Int) (now : Nat) (h : s.mode = .wait) :
    exec (.ctrlUpdate cur now) s = .next (ctrlUpdate cur now s) := congrArg _ (betweenTicks_of_wait h)

theorem exec_ctrlUpdate_of_not_wait {s : State} (cur : Int) (now : Nat) (h : s.mode ≠ .wait) :
    exec (.ctrlUpdate cur now) s = .next s := next_betweenTicks_of_not_wait h

/-- A tick that opens or restarts a window takes the Blink State from the tick alone (43 R196). -/
theorem ctrlUpdate_of_opens {s : State} {cur : Int} (now : Nat) (h : opensWindow s cur = true) :
    ctrlUpdate cur now s = windowUpdate now { s with blink := .blinking, blinkStart := now } := by
  rw [ctrlUpdate_eq, if_pos h]

/-- A tick in IDLE that opens no window paints the buffer off and writes nothing else (43 R201). -/
theorem ctrlUpdate_of_idle {s : State} {cur : Int} (now : Nat) (hb : s.blink = .idle) (h : opensWindow s cur = false) :
    ctrlUpdate cur now s = { s with fb := fbFill s.params s.fb s.params.colorOff } := by
  rw [ctrlUpdate_eq, h]
  simp only [windowUpdate, hb, paintOff, Bool.false_eq_true, if_false]

/-- A window that opens at this tick is open after it, unless windows last no time at all (43 R198). -/
theorem ctrlUpdate_blink_of_opens {s : State} {cur : Int} (now : Nat) (h : opensWindow s cur = true)
    (hd : 0 < s.params.blinkDuration) : (ctrlUpdate cur now s).blink = .blinking := by
  have hopen : openAfter cur now s := ⟨.inl h, by simpa [startAfter, h] using hd⟩
  rcases ctrlUpdate_cases cur now s with ⟨-, hu⟩ | ⟨hn, -⟩
  · rw [hu]
  · exact absurd hopen hn

/-- Settles O46: if the tick opens a window the old start is overwritten before the window is looked at, and if not
the controller in IDLE looks at no window. -/
theorem blinkStartIsNotReadWhileIdle : Obligations.BlinkStartIsNotReadWhileIdle := by
  intro s v now cur hb
  by_cases hm : s.mode = .wait
  · refine ⟨_, _, exec_ctrlUpdate_of_wait cur now hm,
      exec_ctrlUpdate_of_wait (s := { s with blinkStart := v }) cur now hm, ?_⟩
    cases ho : opensWindow s cur
    · rw [ctrlUpdate_of_idle now hb ho, ctrlUpdate_of_idle (s := { s with blinkStart := v }) now hb ho]
      exact ⟨rfl, fun h => by simp [hb] at h, fun _ _ => ⟨rfl, rfl⟩⟩
    · have hsame : ctrlUpdate cur now { s with blinkStart := v } = ctrlUpdate cur now s := by
        rw [ctrlUpdate_of_opens now ho, ctrlUpdate_of_opens (s := { s with blinkStart := v }) now ho]
      rw [hsame]
      refine ⟨rfl, fun _ => rfl, fun hi hd => ?_⟩
      rw [ctrlUpdate_blink_of_opens now ho hd] at hi
      cases hi
  · refine ⟨_, _, exec_ctrlUpdate_of_not_wait cur now hm,
      exec_ctrlUpdate_of_not_wait (s := { s with blinkStart := v }) cur now hm, rfl, fun h => ?_, fun _ _ => ⟨rfl, rfl⟩⟩
    rw [hb] at h
    cases h

/-- What the buffer held never shows in what the controller paints (43 R201). -/
theorem ctrlUpdate_with_fb {s : State} {old : FrameBuffer} (cur : Int) (now : Nat)
    (hs : s.fb.length = s.params.ledCount) (hl : old.length = s.params.ledCount) :
    ctrlUpdate cur now { s with fb := old } = ctrlUpdate cur now s := by
  have hpaint (px : Pixel) : fbFill s.params old px = fbFill s.params s.fb px := by
    rw [fbFill_eq_replicate px hl, fbFill_eq_replicate px hs]
  rcases ctrlUpdate_cases cur now s with ⟨ho, h⟩ | ⟨ho, h⟩ <;>
    rcases ctrlUpdate_cases cur now { s with fb := old } with ⟨ho', h'⟩ | ⟨ho', h'⟩
  · rw [h, h', hpaint]
    rfl
  · exact absurd ho ho'
  · exact absurd ho' ho
  · rw [h, h', hpaint]
    rfl

theorem windowUpdate_with_prevSample (now : Nat) (s : State) (prev : Int) :
    windowUpdate now { s with prevSample := prev } = { windowUpdate now s with prevSample := prev } := by
  cases hb : s.blink
  · simp only [windowUpdate, hb]
  · by_cases he : elapsed s.params now s.blinkStart < s.params.blinkDuration <;>
      simp only [windowUpdate, hb, he, if_true, if_false]

/-- Before a baseline the reference sample is the tick's own (43 R194). -/
theorem ctrlUpdate_with_prevSample {s : State} (cur : Int) (now : Nat) (prev : Int) (h : s.baselineValid = false) :
    ctrlUpdate cur now { s with prevSample := prev } = { ctrlUpdate cur now s with prevSample := prev } := by
  have hopens : opensWindow { s with prevSample := prev } cur = opensWindow s cur := by
    simp [opensWindow, trig, refSample, h]
  rw [ctrlUpdate_eq, ctrlUpdate_eq, hopens, ← windowUpdate_with_prevSample]
  split <;> rfl

/-- Settles O47: whichever colour the tick paints, it fills every pixel, and the trigger looks at `prev_sample`
under a baseline only. -/
theorem controllerReadsNoStaleData : Obligations.ControllerReadsNoStaleData := by
  intro s cur now prev old hs hl hm
  refine ⟨_, exec_ctrlUpdate_of_wait cur now hm, ?_, fun hv => ?_⟩
  · rw [exec_ctrlUpdate_of_wait (s := { s with fb := old }) cur now hm, ctrlUpdate_with_fb cur now hs hl]
  · rw [exec_ctrlUpdate_of_wait (s := { s with prevSample := prev }) cur now hm,
      ctrlUpdate_with_prevSample cur now prev hv]

end Sys2Proof.Machine

/-! ### A host that presents nothing (assumption log 1) -/

namespace Sys2Proof.Machine

/-- The edge of a host that presents nothing: no command, and every pin low. -/
def idleEdge (s : State) : State := nopEdge { s with pins := {} }

@[simp] theorem idleEdge_fb (s : State) : (idleEdge s).fb = s.fb := by rw [idleEdge, nopEdge_frame]

@[simp] theorem idleEdge_script (s : State) : (idleEdge s).script = s.script := by rw [idleEdge, nopEdge_frame]

@[simp] theorem iterate_idleEdge_fb (k : Nat) (s : State) : (idleEdge^[k] s).fb = s.fb := by
  induction k generalizing s with
  | zero => rfl
  | succ k ih => rw [Function.iterate_succ_apply, ih, idleEdge_fb]

/-- With nothing left to present, a step is the idle edge. -/
theorem step_of_script_nil {s : State} (h : s.script = []) : step s = .next (idleEdge s) := by
  rw [step, fetch_of_nil h]
  rfl

theorem run_succ_of_next {M : Host.Core} {s t : M.State} (h : M.step s = .next t) (k : Nat) :
    M.run (k + 1) s = M.run k t := by
  simp only [Host.Core.run, h]

/-- With nothing left to present, a run is idle edges, and none of them stops it. -/
theorem run_of_script_nil {s : State} (h : s.script = []) (k : Nat) :
    Sys2Proof.core.run k s = .next (idleEdge^[k] s) := by
  induction k generalizing s with
  | zero => rfl
  | succ k ih =>
    calc Sys2Proof.core.run (k + 1) s
      _ = Sys2Proof.core.run k (idleEdge s) := run_succ_of_next (step_of_script_nil h) k
      _ = .next (idleEdge^[k + 1] s) := ih ((idleEdge_script s).trans h)

/-! ### What the Transmitter reads (20 R71, 40 R128) -/

/-- The two states agree in the record of the wire and in all that an idle edge reads to write it: the parameters, the
Frame Buffer, the mode and the sequencer. -/
structure SameLine (s u : State) : Prop where
  params : u.params = s.params
  fb : u.fb = s.fb
  mode : u.mode = s.mode
  seq : u.seq = s.seq
  wire : u.wire = s.wire

section
variable {s u : State}

theorem SameLine.clearStrobes (h : SameLine s u) : SameLine (clearStrobes s) (clearStrobes u) :=
  ⟨h.params, h.fb, h.mode, h.seq, h.wire⟩

theorem SameLine.with_seq (h : SameLine s u) {q r : Seq} (hq : r = q) :
    SameLine { s with seq := q } { u with seq := r } :=
  ⟨h.params, h.fb, h.mode, hq, h.wire⟩

theorem SameLine.completeTick (h : SameLine s u) : SameLine (completeTick s) (completeTick u) :=
  ⟨h.params, h.fb, rfl, rfl, h.wire⟩

theorem SameLine.recordTick (h : SameLine s u) : SameLine (recordTick s) (recordTick u) := by
  have hwire : (Machine.recordTick u).wire = (Machine.recordTick s).wire := by
    simp only [recordTick_eq, dout, h.mode, h.seq, h.wire]
    split
    · rfl
    · exact h.wire
  exact ⟨by simp [h.params], by simp [h.fb], by simp [h.mode], by simp [h.seq], hwire⟩

/-- The sequencer steps alike in both, phase by phase (41 R151 to R155). -/
theorem SameLine.seqEdge (h : SameLine s u) : SameLine (seqEdge s) (seqEdge u) := by
  have hphase : u.seq.phase = s.seq.phase := congrArg Seq.phase h.seq
  cases hp : s.seq.phase
  case idle => rwa [seqEdge_of_idle hp, seqEdge_of_idle (hphase.trans hp)]
  case load =>
    rw [seqEdge_of_load hp, seqEdge_of_load (hphase.trans hp)]
    exact h.with_seq (by rw [h.params, h.fb])
  case high =>
    rw [seqEdge_of_high hp, seqEdge_of_high (hphase.trans hp)]
    exact h.with_seq (by rw [h.params, h.fb, h.seq])
  case low =>
    rw [seqEdge_of_low hp, seqEdge_of_low (hphase.trans hp)]
    exact h.with_seq (by rw [h.params, h.fb, h.seq])
  case latch =>
    have hcnt : u.seq.cnt = s.seq.cnt := congrArg Seq.cnt h.seq
    by_cases hc : 1 < s.seq.cnt
    · rw [seqEdge_of_latch_count hp hc, seqEdge_of_latch_count (hphase.trans hp) (hcnt ▸ hc)]
      exact h.with_seq (by rw [h.params, h.seq])
    · rw [seqEdge_of_latch_done hp (Nat.le_of_not_lt hc),
        seqEdge_of_latch_done (hphase.trans hp) (hcnt ▸ Nat.le_of_not_lt hc)]
      exact h.completeTick

/-- With nothing presented to either, both take the same edge, mode by mode (44 R238). -/
theorem SameLine.idleEdge (h : SameLine s u) : SameLine (idleEdge s) (idleEdge u) := by
  have h' : SameLine { s with pins := {} } { u with pins := {} } := ⟨h.params, h.fb, h.mode, h.seq, h.wire⟩
  unfold Machine.idleEdge
  rcases mode_cases s.mode with hm | hm | hm | hm
  · rw [nopEdge_of_init (h'.mode.trans hm), nopEdge_of_init (s := { s with pins := {} }) hm]
    exact ⟨h.params, h.fb, rfl, h.seq, h.wire⟩
  · rw [nopEdge_of_wait (h'.mode.trans hm), nopEdge_of_wait (s := { s with pins := {} }) hm]
    exact h'.clearStrobes
  · rw [nopEdge_of_tx (h'.mode.trans hm) rfl, nopEdge_of_tx (s := { s with pins := {} }) hm rfl]
    exact h'.recordTick.clearStrobes.seqEdge
  · rw [nopEdge_of_halted (h'.mode.trans hm), nopEdge_of_halted (s := { s with pins := {} }) hm]
    exact h'.clearStrobes

/-- Two runs of such states go in lockstep. -/
theorem SameLine.iterate_idleEdge (h : SameLine s u) (k : Nat) :
    SameLine (Machine.idleEdge^[k] s) (Machine.idleEdge^[k] u) := by
  induction k generalizing s u with
  | zero => exact h
  | succ k ih => exact ih h.idleEdge

end

/-- Settles O24: the Transmitter reads nothing in which the two states differ, so their runs go in lockstep and leave
one record of the wire; and no idle edge writes the Frame Buffer. -/
theorem sameFrameBufferSameTrace : Obligations.SameFrameBufferSameTrace := by
  rintro s u - ⟨hm, hseq, hwire, hscript⟩ ⟨hm', hseq', hwire', hscript'⟩ hparams hfb
  have hsame : SameLine s u := ⟨hparams, hfb, hm'.trans hm.symm, hseq'.trans hseq.symm, hwire'.trans hwire.symm⟩
  have hcycles : frameCycles u = frameCycles s := by simp only [frameCycles, hparams, hfb]
  refine ⟨_, _, run_of_script_nil hscript _, run_of_script_nil hscript' _, ?_, iterate_idleEdge_fb _ s⟩
  rw [hcycles, wireTrace, wireTrace, (hsame.iterate_idleEdge _).wire]

end Sys2Proof.Machine

/-! ### The encoder's words (30 R92 to R100) -/

namespace Sys2Proof.Machine

/-- A word with three byte operands as its rightmost 24 bits, and `lead` to their left (30 R92, R100). -/
def packed (lead : Nat) (b2 b1 b0 : Byte) : Nat := lead * 2 ^ 24 + b2.toNat * 2 ^ 16 + b1.toNat * 2 ^ 8 + b0.toNat

section
variable (lead : Nat) (b2 b1 b0 : Byte)

@[simp] theorem packed_div : packed lead b2 b1 b0 / 0x1000000 = lead := by
  have := b2.isLt; have := b1.isLt; have := b0.isLt
  unfold packed
  omega

@[simp] theorem ofNat_packed_high : BitVec.ofNat 8 (packed lead b2 b1 b0 / 0x10000) = b2 := by
  have := b2.isLt; have := b1.isLt; have := b0.isLt
  apply BitVec.eq_of_toNat_eq
  rw [BitVec.toNat_ofNat, packed]
  omega

@[simp] theorem ofNat_packed_middle : BitVec.ofNat 8 (packed lead b2 b1 b0 / 0x100) = b1 := by
  have := b1.isLt; have := b0.isLt
  apply BitVec.eq_of_toNat_eq
  rw [BitVec.toNat_ofNat, packed]
  omega

@[simp] theorem ofNat_packed_low : BitVec.ofNat 8 (packed lead b2 b1 b0) = b0 := by
  have := b0.isLt
  apply BitVec.eq_of_toNat_eq
  rw [BitVec.toNat_ofNat, packed]
  omega

end

/-- A word is its three rightmost bytes and what stands to their left. -/
theorem packed_of_ofNat (val : Nat) :
    packed (val / 2 ^ 24) (BitVec.ofNat 8 (val / 2 ^ 16)) (BitVec.ofNat 8 (val / 2 ^ 8)) (BitVec.ofNat 8 val) =
      val := by
  simp only [packed, BitVec.toNat_ofNat]
  omega

/-- SET_PIXEL's word: the id and the index stand left of the three channels (30 R100). -/
theorem encode_setPixel (p : Params) (index : Nat) (r g b : Byte) :
    (encode p (.setPixel index r g b)).word = .operation (28 + p.idxW) (packed (5 * 2 ^ p.idxW + index) r g b) := by
  simp only [encode, packed, Nat.pow_add]
  congr 4
  ring

theorem encode_fill (p : Params) (r g b : Byte) : (encode p (.fill r g b)).word = .operation 28 (packed 7 r g b) := rfl

theorem encode_pixelWord (p : Params) (g r b : Byte) :
    (encode p (.pixelWord g r b)).word = .data 24 (packed 0 g r b) := by
  simp only [encode, packed, Nat.zero_mul, Nat.zero_add]

/-! ### Decoding what the encoder writes -/

theorem decode_of_operation {p : Params} {x : Stimulus} {len val : Nat} (h : x.word = .operation len val) :
    decode p x = decodeOperation p len val x := by
  simp only [decode, h]

theorem decode_of_data {p : Params} {x : Stimulus} {len val : Nat} (h : x.word = .data len val) :
    decode p x = decodeData len val := by
  simp only [decode, h]

theorem decode_of_command {p : Params} {x : Stimulus} {cmd : BitVec 3} (h : x.word = .command cmd) :
    decode p x = .ok (decodeCommand p cmd x) := by
  simp only [decode, h]

/-- A sample and a time driven on the ports are read back (44 R231). -/
theorem operands_of_ports {p : Params} {cur : Int} {now : Nat} {x : Stimulus} (hc : p.SampleOk cur) (ht : p.TimeOk now)
    (hs : x.sample = unsignedOf p.sampleW cur) (hn : x.nowMs = now) :
    sampleOperand p x = cur ∧ timeOperand p x = now := by
  subst hn
  exact ⟨by rw [sampleOperand, hs, signedOf_unsignedOf hc], timeOperand_of_timeOk ht⟩

theorem decode_encode_tick {p : Params} {cur : Int} {now : Nat} (hc : p.SampleOk cur) (ht : p.TimeOk now) :
    decode p (encode p (.tick cur now)) = .ok (.tick cur now) := by
  obtain ⟨hsample, htime⟩ := operands_of_ports (x := encode p (.tick cur now)) hc ht rfl rfl
  calc decode p (encode p (.tick cur now))
    _ = .ok (.tick (sampleOperand p (encode p (.tick cur now))) (timeOperand p (encode p (.tick cur now)))) := rfl
    _ = .ok (.tick cur now) := by rw [hsample, htime]

theorem decode_encode_ctrlUpdate {p : Params} {cur : Int} {now : Nat} (hc : p.SampleOk cur) (ht : p.TimeOk now) :
    decode p (encode p (.ctrlUpdate cur now)) = .ok (.ctrlUpdate cur now) := by
  obtain ⟨hsample, htime⟩ := operands_of_ports (x := encode p (.ctrlUpdate cur now)) hc ht rfl rfl
  calc decode p (encode p (.ctrlUpdate cur now))
    _ = .ok (.ctrlUpdate (sampleOperand p (encode p (.ctrlUpdate cur now)))
          (timeOperand p (encode p (.ctrlUpdate cur now)))) := rfl
    _ = .ok (.ctrlUpdate cur now) := by rw [hsample, htime]

/-- ENCODE_BYTE's id is the word without its rightmost byte, and the operand that byte (30 R100). -/
theorem decode_encode_encodeByte (p : Params) (d : Byte) :
    decode p (encode p (.encodeByte d)) = .ok (.encodeByte d) := by
  have := d.isLt
  have hid : (0x100 + d.toNat) / 0x100 = 1 := by omega
  have hd : BitVec.ofNat 8 (0x100 + d.toNat) = d := by
    apply BitVec.eq_of_toNat_eq
    rw [BitVec.toNat_ofNat]
    omega
  simp [decode, encode, decodeOperation, hid, hd, -Nat.add_div_left]

theorem decode_encode_setPixel {p : Params} {index : Nat} (r g b : Byte) (h : index < 2 ^ p.idxW) :
    decode p (encode p (.setPixel index r g b)) = .ok (.setPixel index r g b) := by
  have hid : packed (5 * 2 ^ p.idxW + index) r g b / 2 ^ (28 + p.idxW - 4) = 5 := by
    rw [show 28 + p.idxW - 4 = 24 + p.idxW by omega, Nat.pow_add, ← Nat.div_div_eq_div_mul, packed_div, Nat.mul_comm,
      Nat.mul_add_div (Nat.two_pow_pos _), Nat.div_eq_of_lt h]
  have hindex : (5 * 2 ^ p.idxW + index) % 2 ^ p.idxW = index := by
    rw [Nat.mul_add_mod_self_right, Nat.mod_eq_of_lt h]
  have hlen : ¬ 28 + p.idxW < 4 := by omega
  rw [decode_of_operation (encode_setPixel p index r g b)]
  simp [decodeOperation, hlen, hid, hindex]

theorem decode_encode_fill (p : Params) (r g b : Byte) : decode p (encode p (.fill r g b)) = .ok (.fill r g b) := by
  rw [decode_of_operation (encode_fill p r g b)]
  simp [decodeOperation]

theorem decode_encode_pixelWord (p : Params) (g r b : Byte) :
    decode p (encode p (.pixelWord g r b)) = .ok (.pixelWord g r b) := by
  have hlt : packed 0 g r b < 0x1000000 := Nat.lt_of_div_eq_zero (by decide) (packed_div 0 g r b)
  rw [decode_of_data (encode_pixelWord p g r b)]
  simp [decodeData, hlt]

/-- Settles O3: every row of the three encodings, the operands read back from where the encoder puts them. -/
theorem decodeOfEncodeIsTheInstruction : Obligations.DecodeOfEncodeIsTheInstruction := by
  intro p i hw
  cases i with
  | reset | nop | tickSfault => rfl
  | tick cur now =>
    obtain ⟨hc, ht⟩ := of_decide_eq_true hw
    exact decode_encode_tick hc ht
  | encodeBit v => cases v <;> rfl
  | encodeByte d => exact decode_encode_encodeByte p d
  | encode | decode | transmit | clear | snapshot | tickEnd => rfl
  | setPixel index r g b => exact decode_encode_setPixel r g b (of_decide_eq_true hw)
  | fill r g b => exact decode_encode_fill p r g b
  | ctrlUpdate cur now =>
    obtain ⟨hc, ht⟩ := of_decide_eq_true hw
    exact decode_encode_ctrlUpdate hc ht
  | halt code => cases code <;> rfl
  | unassigned x => cases hw
  | sym0 | sym1 | latch => rfl
  | pixelWord g r b => exact decode_encode_pixelWord p g r b

end Sys2Proof.Machine

/-! ### Words that are no operation (30 R100, R102) -/

namespace Sys2Proof.Machine

/-- The lengths of the operation patterns (30 R100). -/
def IsPatternLength (p : Params) (len : Nat) : Prop :=
  len = 4 ∨ len = 5 ∨ len = 6 ∨ len = 12 ∨ len = 28 ∨ len = 28 + p.idxW

/-- The word of `len` bits with value `val` is the one the table gives the operation `i` (30 R100). -/
def IsOperationWord (p : Params) (len val : Nat) (i : Instr) : Prop :=
  IsPatternLength p len ∧ val < 2 ^ len ∧ isCommand i = false ∧ (encode p i).word = .operation len val

/-- A guarded answer of the decoder is `ok` where its guard holds. -/
theorem eq_of_ite_eq_ok {c : Prop} [Decidable c] {i j : Instr} {why : DecodeError}
    (h : (if c then .ok j else .error why) = Except.ok i) : c ∧ j = i := by
  split at h
  · next hc =>
    cases h
    exact ⟨hc, rfl⟩
  · cases h

section
variable {p : Params} {val : Nat}

/-- An operation without operands in its word is its id alone. -/
theorem isOperationWord_of_bare {len id : Nat} {i j : Instr} {why : DecodeError} (hid : val / 2 ^ (len - 4) = id)
    (h : (if len = 4 then .ok j else .error why) = Except.ok i) (hlt : id < 16) (hcmd : isCommand j = false)
    (hword : (encode p j).word = .operation 4 id) : IsOperationWord p len val i := by
  obtain ⟨rfl, rfl⟩ := eq_of_ite_eq_ok h
  obtain rfl : val = id := (Nat.div_one val).symm.trans hid
  exact ⟨.inl rfl, hlt, hcmd, hword⟩

theorem isOperationWord_encodeBit (hid : val / 2 = 0) : IsOperationWord p 5 val (.encodeBit (val % 2 = 1)) := by
  obtain rfl | rfl : val = 0 ∨ val = 1 := by omega
  · exact ⟨.inr (.inl rfl), by decide, rfl, rfl⟩
  · exact ⟨.inr (.inl rfl), by decide, rfl, rfl⟩

theorem isOperationWord_encodeByte (hid : val / 2 ^ 8 = 1) :
    IsOperationWord p 12 val (.encodeByte (BitVec.ofNat 8 val)) := by
  have hval : 0b0001 * 2 ^ 8 + (BitVec.ofNat 8 val).toNat = val := by
    rw [BitVec.toNat_ofNat]
    omega
  exact ⟨.inr (.inr (.inr (.inl rfl))), by omega, rfl, congrArg (CodeWord.operation 12) hval⟩

theorem isOperationWord_setPixel (hid : val / 2 ^ (24 + p.idxW) = 5) :
    IsOperationWord p (28 + p.idxW) val
      (.setPixel (val / 2 ^ 24 % 2 ^ p.idxW) (BitVec.ofNat 8 (val / 2 ^ 16)) (BitVec.ofNat 8 (val / 2 ^ 8))
        (BitVec.ofNat 8 val)) := by
  have hlt : val < 2 ^ (28 + p.idxW) := by
    apply Nat.lt_of_div_lt_div (c := 2 ^ (24 + p.idxW))
    rw [hid, Nat.pow_div (by omega) (by decide), show 28 + p.idxW - (24 + p.idxW) = 4 by omega]
    decide
  have hhead : 5 * 2 ^ p.idxW + val / 2 ^ 24 % 2 ^ p.idxW = val / 2 ^ 24 := by
    rw [Nat.pow_add, ← Nat.div_div_eq_div_mul] at hid
    rw [← hid, Nat.mul_comm, Nat.div_add_mod]
  refine ⟨.inr (.inr (.inr (.inr (.inr rfl)))), hlt, rfl, ?_⟩
  rw [encode_setPixel, hhead, packed_of_ofNat]

theorem isOperationWord_fill (hid : val / 2 ^ 24 = 7) :
    IsOperationWord p 28 val
      (.fill (BitVec.ofNat 8 (val / 2 ^ 16)) (BitVec.ofNat 8 (val / 2 ^ 8)) (BitVec.ofNat 8 val)) := by
  refine ⟨.inr (.inr (.inr (.inr (.inl rfl)))), by omega, rfl, ?_⟩
  rw [encode_fill, ← hid, packed_of_ofNat]

theorem isOperationWord_halt (hid : val / 2 ^ 2 = 11) : IsOperationWord p 6 val (.halt (faultCodeOf (val % 4))) := by
  have hlen : IsPatternLength p 6 := .inr (.inr (.inl rfl))
  obtain rfl | rfl | rfl | rfl : val = 44 ∨ val = 45 ∨ val = 46 ∨ val = 47 := by omega
  · exact ⟨hlen, by decide, rfl, rfl⟩
  · exact ⟨hlen, by decide, rfl, rfl⟩
  · exact ⟨hlen, by decide, rfl, rfl⟩
  · exact ⟨hlen, by decide, rfl, rfl⟩

/-- The inversion lemma of the operation decoder, id by id. -/
theorem isOperationWord_of_decodeOperation {len : Nat} {x : Stimulus} {i : Instr}
    (h : decodeOperation p len val x = .ok i) : IsOperationWord p len val i := by
  unfold decodeOperation at h
  simp only at h
  split at h
  · cases h
  split at h
  case h_1 hid =>
    obtain ⟨rfl, rfl⟩ := eq_of_ite_eq_ok h
    exact isOperationWord_encodeBit hid
  case h_2 hid =>
    obtain ⟨rfl, rfl⟩ := eq_of_ite_eq_ok h
    exact isOperationWord_encodeByte hid
  case h_3 hid => exact isOperationWord_of_bare hid h (by decide) rfl rfl
  case h_4 hid => exact isOperationWord_of_bare hid h (by decide) rfl rfl
  case h_5 hid => exact isOperationWord_of_bare hid h (by decide) rfl rfl
  case h_6 hid =>
    obtain ⟨rfl, rfl⟩ := eq_of_ite_eq_ok h
    rw [show 28 + p.idxW - 4 = 24 + p.idxW by omega] at hid
    exact isOperationWord_setPixel hid
  case h_7 hid => exact isOperationWord_of_bare hid h (by decide) rfl rfl
  case h_8 hid =>
    obtain ⟨rfl, rfl⟩ := eq_of_ite_eq_ok h
    exact isOperationWord_fill hid
  case h_9 hid => exact isOperationWord_of_bare hid h (by decide) rfl rfl
  case h_10 hid => exact isOperationWord_of_bare hid h (by decide) rfl rfl
  case h_11 hid => exact isOperationWord_of_bare hid h (by decide) rfl rfl
  case h_12 hid =>
    obtain ⟨rfl, rfl⟩ := eq_of_ite_eq_ok h
    exact isOperationWord_halt hid
  case h_13 hid => exact isOperationWord_of_bare hid h (by decide) rfl rfl
  case h_14 hid => exact isOperationWord_of_bare hid h (by decide) rfl rfl
  case h_15 hid => exact isOperationWord_of_bare hid h (by decide) rfl rfl
  case h_16 hid => exact isOperationWord_of_bare hid h (by decide) rfl rfl
  case h_17 => cases h

end

/-- Settles O4: whatever the operation decoder accepts is the table's word for what it decodes to. -/
theorem onlyTableLengthsDecodeAsOperations : Obligations.OnlyTableLengthsDecodeAsOperations := by
  intro p x len val i hx h
  rw [decode_of_operation hx] at h
  obtain ⟨hlen, hlt, hcmd, hword⟩ := isOperationWord_of_decodeOperation h
  exact ⟨hlen, hlt, hcmd, hword.trans hx.symm⟩

/-! ### The command vector (30 R98, R99) -/

/-- The four rows of the command decode, over the three bits of the vector (30 R99). -/
theorem decodeCommand_ofBool (p : Params) (x : Stimulus) (rst tickReq sampleFault : Bool) :
    decodeCommand p (BitVec.ofBool rst ++ BitVec.ofBool tickReq ++ BitVec.ofBool sampleFault) x =
      if rst then .reset
      else if !tickReq then .nop
      else if !sampleFault then .tick (sampleOperand p x) (timeOperand p x)
      else .tickSfault := by
  cases rst with
  | true => cases tickReq <;> cases sampleFault <;> rfl
  | false =>
    cases tickReq with
    | false => cases sampleFault <;> rfl
    | true => cases sampleFault <;> rfl

/-- Settles O1: a command word decodes by the rows, and TICK reads its two ports. -/
theorem commandVectorDecodesByItsRows : Obligations.CommandVectorDecodesByItsRows := by
  intro p rst tickReq sampleFault x hx
  rw [decode_of_command hx, decodeCommand_ofBool]
  rfl

/-- Settles O2: each of the seven words evaluates to its instruction, whatever the unknown durations are. -/
theorem wordsOfTheSpecDecode : Obligations.WordsOfTheSpecDecode := ⟨rfl, rfl, rfl, rfl, rfl, rfl, rfl⟩

/-- Settles O52: the meaning of UNASSIGNED is its refusal, for every id and in every state. -/
theorem unassignedIdsAreRefused : Obligations.UnassignedIdsAreRefused := fun _ _ => rfl

/-! ### Every command completes (30 R99, R102) -/

/-- What no command touches: the host's side, the parameters, and what a value operation returned. -/
def SameHost (s u : State) : Prop :=
  u.script = s.script ∧ u.pins = s.pins ∧ u.params = s.params ∧ u.result = s.result

theorem sameHost_resetEdge (s : State) : SameHost s (resetEdge s) := by
  simp [SameHost, resetEdge]

theorem sameHost_nopEdge (s : State) : SameHost s (nopEdge s) := by
  rw [nopEdge_frame]
  exact ⟨rfl, rfl, rfl, rfl⟩

theorem sameHost_tickEdge (sample : Int) (now : Nat) (s : State) : SameHost s (tickEdge sample now s) := by
  unfold tickEdge
  split
  · simp [SameHost, acceptTick]
  · exact sameHost_nopEdge s

theorem sameHost_tickSfaultEdge (s : State) : SameHost s (tickSfaultEdge s) := by
  unfold tickSfaultEdge
  split
  · split
    · simp [SameHost]
    · exact ⟨rfl, rfl, rfl, rfl⟩
  · exact sameHost_nopEdge s

/-- Each row of the command decode is an edge, and an edge always has a next state. -/
theorem exec_decodeCommand (p : Params) (cmd : BitVec 3) (x : Stimulus) (s : State) :
    ∃ u, exec (decodeCommand p cmd x) s = .next u ∧ SameHost s u := by
  unfold decodeCommand
  split_ifs
  · exact ⟨_, rfl, sameHost_resetEdge s⟩
  · exact ⟨_, rfl, sameHost_nopEdge s⟩
  · exact ⟨_, rfl, sameHost_tickEdge _ _ s⟩
  · exact ⟨_, rfl, sameHost_tickSfaultEdge s⟩

/-- A step takes the next item, puts its pins in place and runs what it decodes to (assumption log 1). -/
theorem step_of_decode {s : State} {x : Stimulus} {rest : List Stimulus} {i : Instr} (hs : s.script = x :: rest)
    (h : decode s.params x = .ok i) : step s = exec i { s with script := rest, pins := x.pins } := by
  simp only [step, fetch_of_cons hs, h]

/-- Settles O59: a command word decodes whatever its bits are, and the edge it stands for completes. -/
theorem commandsAlwaysComplete : Obligations.CommandsAlwaysComplete := by
  intro s x rest cmd hs hx
  obtain ⟨u, hu, hscript, hpins, hparams, hresult⟩ :=
    exec_decodeCommand s.params cmd x { s with script := rest, pins := x.pins }
  exact ⟨u, (step_of_decode hs (decode_of_command hx)).trans hu, hscript, hpins, hparams, hresult⟩

end Sys2Proof.Machine

/-! ### The wire symbols (30 R92 to R94) -/

namespace Sys2Proof.Machine

section
variable {s : State}

theorem exec_sym0_of_wait (h : s.mode = .wait) : exec .sym0 s = .next (onWire (pulsesOfBit s.params false) s) :=
  congrArg _ (betweenTicks_of_wait h)

theorem exec_sym1_of_wait (h : s.mode = .wait) : exec .sym1 s = .next (onWire (pulsesOfBit s.params true) s) :=
  congrArg _ (betweenTicks_of_wait h)

theorem exec_latch_of_wait (h : s.mode = .wait) : exec .latch s = .next (onWire [latchPulse s.params] s) :=
  congrArg _ (betweenTicks_of_wait h)

theorem exec_pixelWord_of_wait (g r b : Byte) (h : s.mode = .wait) :
    exec (.pixelWord g r b) s = .next (onWire (pulsesOfBytes s.params [g, r, b]) s) :=
  congrArg _ (betweenTicks_of_wait h)

end

/-- A train put on the wire adds its own levels to the trace. -/
theorem levels_wireTrace_onWire (train : List Pulse) (s : State) :
    levels (wireTrace (onWire train s)) = levels (wireTrace s) ++ levels train := levels_emitAll s.wire train

/-- The symbol of a bit adds its high levels, then its low ones (30 R93). -/
theorem levels_wireTrace_onWire_bit (s : State) (v : Bool) :
    levels (wireTrace (onWire (pulsesOfBit s.params v) s)) =
      levels (wireTrace s) ++ List.replicate (highTicks s.params v) true ++
        List.replicate (lowTicks s.params v) false := by
  rw [levels_wireTrace_onWire]
  simp [pulsesOfBit]

/-- Settles O35: in mode WAIT each symbol is a train put on the wire, and `betweenTicks` drops it elsewhere. -/
theorem wireSymbolsEmitTheirLevels : Obligations.WireSymbolsEmitTheirLevels := by
  intro s
  refine ⟨fun hm => ⟨?_, ?_, ?_, fun g r b => ?_⟩, fun hm => ?_⟩
  · exact ⟨_, exec_sym0_of_wait hm, rfl, levels_wireTrace_onWire_bit s false⟩
  · exact ⟨_, exec_sym1_of_wait hm, rfl, levels_wireTrace_onWire_bit s true⟩
  · refine ⟨_, exec_latch_of_wait hm, rfl, ?_⟩
    rw [levels_wireTrace_onWire, levels_cons, levels_nil, List.append_nil]
    rfl
  · exact ⟨_, _, exec_pixelWord_of_wait g r b hm, rfl, rfl, levels_wireTrace_onWire _ s⟩
  · exact ⟨next_betweenTicks_of_not_wait hm, next_betweenTicks_of_not_wait hm, next_betweenTicks_of_not_wait hm,
      fun _ _ _ => next_betweenTicks_of_not_wait hm⟩

/-! ### A frame as its symbols (30 R91) -/

theorem encode_pins (p : Params) (i : Instr) : (encode p i).pins = {} := by cases i <;> rfl

/-- A step over an encoded instruction runs that instruction, with every pin low. -/
theorem step_of_encode {s : State} {i : Instr} {rest : List Stimulus} (hs : s.script = encode s.params i :: rest)
    (hw : wellFormed s.params i = true) : step s = exec i { s with script := rest, pins := {} } := by
  rw [step_of_decode hs (decodeOfEncodeIsTheInstruction s.params i hw), encode_pins]

/-- The items of a frame: a PIXEL_WORD for each pixel in index order, then LATCH (30 R91). -/
def frameItems (p : Params) (pixels : List Pixel) : List Stimulus :=
  (pixels.map fun px => encode p (.pixelWord px.g px.r px.b)) ++ [encode p .latch]

/-- The train of those items: the pixels' bytes as symbols, then the latch (30 R92, R94). -/
def pixelsTrain (p : Params) (pixels : List Pixel) : List Pulse :=
  frameTrain p (pixels.flatMap fun px => [px.g, px.r, px.b])

theorem pixelsTrain_cons (p : Params) (px : Pixel) (pixels : List Pixel) :
    pixelsTrain p (px :: pixels) = pulsesOfBytes p [px.g, px.r, px.b] ++ pixelsTrain p pixels := by
  simp [pixelsTrain, frameTrain, pulsesOfBytes]

/-- A run over the items of a frame in mode WAIT puts their train on the wire, item by item, and writes nothing else of
the block. -/
theorem run_frameItems (pixels : List Pixel) {s : State} (hm : s.mode = .wait)
    (hs : s.script = frameItems s.params pixels) :
    Sys2Proof.core.run (pixels.length + 1) s =
      .next { s with script := [], pins := {}, wire := emitAll s.wire (pixelsTrain s.params pixels) } := by
  induction pixels generalizing s with
  | nil =>
    have hstep : step s = .next { s with script := [], pins := {}, wire := emitAll s.wire [latchPulse s.params] } :=
      (step_of_encode hs rfl).trans (exec_latch_of_wait hm)
    exact run_succ_of_next (M := Sys2Proof.core) hstep 0
  | cons px pixels ih =>
    have hstep : step s = .next (onWire (pulsesOfBytes s.params [px.g, px.r, px.b])
        { s with script := frameItems s.params pixels, pins := {} }) :=
      (step_of_encode hs rfl).trans (exec_pixelWord_of_wait _ _ _ hm)
    rw [pixelsTrain_cons, emitAll_append]
    exact (run_succ_of_next (M := Sys2Proof.core) hstep (pixels.length + 1)).trans (ih hm rfl)

/-- Settles O36: the bytes of the pixels in index order are the snapshot, so the train of the items is the frame's, and
what it leaves on an empty wire is its runs. -/
theorem frameIsItsPixelWordsThenLatch : Obligations.FrameIsItsPixelWordsThenLatch := by
  intro s hfb hm hwire hs
  have hlen : s.fb.length = s.params.ledCount := hfb
  have htrain : pixelsTrain s.params s.fb = frameTrain s.params (snapshotOf s.params s.fb) := by
    rw [pixelsTrain, snapshotOf_eq_flatMap hlen]
  refine ⟨_, hlen ▸ run_frameItems s.fb hm hs, rfl, ?_⟩
  rw [wireTrace, hwire, htrain, reverse_emitAll_nil, wireTraceOf]

/-! ### The length of a frame (30 R95, 41 R148) -/

theorem ticksOf_pulsesOfBit (p : Params) (v : Bool) : ticksOf (pulsesOfBit p v) = highTicks p v + lowTicks p v := rfl

/-- The length of a run of symbols counts its zero bits and its one bits (30 R95). -/
theorem ticksOf_symbols (p : Params) (bits : List Bool) :
    ticksOf (bits.flatMap (pulsesOfBit p)) =
      bits.count false * (p.t0h + p.t0l) + bits.count true * (p.t1h + p.t1l) := by
  induction bits with
  | nil => simp
  | cons v bits ih =>
    rw [List.flatMap_cons, ticksOf_append, ih, ticksOf_pulsesOfBit]
    cases v
    · simp only [highTicks, lowTicks, List.count_cons_self, List.count_cons_of_ne, ne_eq, Bool.false_eq_true,
        not_false_eq_true, if_false]
      ring
    · simp only [highTicks, lowTicks, List.count_cons_self, List.count_cons_of_ne, ne_eq, Bool.true_eq_false,
        not_false_eq_true, if_true]
      ring

/-- A byte list has eight bits a byte (20 R65). -/
theorem length_flatMap_bitsOf (bs : List Byte) : (bs.flatMap bitsOf).length = 8 * bs.length := by
  simp [List.length_flatMap, bitsOf, Nat.mul_comm]

/-- The length of a frame of `n` bytes in protocol ticks, by its zero bits (30 R95, 41 R148). -/
theorem ticksOf_frameTrain (p : Params) (bs : List Byte) :
    ticksOf (frameTrain p bs) =
      (bs.flatMap bitsOf).count false * (p.t0h + p.t0l) +
        (8 * bs.length - (bs.flatMap bitsOf).count false) * (p.t1h + p.t1l) + p.tLatch := by
  have hones : (bs.flatMap bitsOf).count true = 8 * bs.length - (bs.flatMap bitsOf).count false := by
    rw [← length_flatMap_bitsOf, ← List.count_false_add_count_true, Nat.add_sub_cancel_left]
  rw [frameTrain, pulsesOfBytes_eq_bits, ticksOf_append, ticksOf_symbols, hones]
  rfl

@[simp] theorem ticksOf_emitAll_nil (train : List Pulse) : ticksOf (emitAll [] train) = ticksOf train := by
  rw [← ticksOf_reverse, reverse_emitAll_nil, ticksOf_runs]

/-- TRANSMIT of the tick's snapshot in the TX_LOAD cycle, where no fault is due, runs to the last cycle of the latch
(41 R141, R142). -/
theorem exec_transmit_of_load {s : State} (hm : s.mode = .tx) (hp : s.seq.phase = .load)
    (hn : s.pins.txFaultAt = none) :
    exec (.transmit (snapshotOf s.params s.fb)) s =
      .next (lastLatchCycle
        (emitAll [] (pulsesOfBytes s.params (snapshotOf s.params s.fb) ++ [⟨false, s.params.tLatch - 1⟩])) s) := by
  simp only [exec, execTransmit, length_snapshotOf, hm, if_true]
  rw [transmitInTx_of_load hp (by rw [hn]; rfl)]

/-- The edge after that TRANSMIT is the completion edge, with the whole frame on record (41 R155). -/
theorem exec_nop_after_transmit {s : State} (snap : List Byte) (hwf : s.params.Wf) (hm : s.mode = .tx) :
    exec .nop
        { lastLatchCycle (emitAll [] (pulsesOfBytes s.params snap ++ [⟨false, s.params.tLatch - 1⟩])) s with
          pins := {} } =
      .next (completeTick (lastLatchCycle (emitAll [] (frameTrain s.params snap)) { s with pins := {} })) := by
  rw [← emit_last_level (durationOk_tLatch hwf).1]
  exact congrArg _ (nopEdge_lastLatchCycle (s := { s with pins := {} }) _ hm rfl)

/-- Settles O33: the record the completion edge leaves is the runs of the frame's train, which lasts as long as the
train. -/
theorem frameLengthCountsItsZeroBits : Obligations.FrameLengthCountsItsZeroBits := by
  intro s hwf hm hp hn
  have hbits : 8 * (snapshotOf s.params s.fb).length = s.params.frameBits := by
    rw [length_snapshotOf, Params.frameBits]
  refine ⟨_, _, _, exec_transmit_of_load hm hp hn, exec_nop_after_transmit _ hwf hm, rfl, ?_, ?_⟩
  · rw [← hbits, ← length_flatMap_bitsOf]
    exact List.count_le_length
  · rw [← hbits, ← ticksOf_frameTrain]
    exact ticksOf_emitAll_nil _

end Sys2Proof.Machine

/-! ### The pulses of the encoder, by position (40 R121 to R123) -/

namespace Sys2Proof.Machine

theorem exec_encodeBit (v : Bool) (s : State) :
    exec (.encodeBit v) s = .next { s with result := .pulses (pulsesOfBit s.params v) } := rfl

theorem exec_encodeByte (d : Byte) (s : State) :
    exec (.encodeByte d) s = .next { s with result := .pulses (pulsesOfByte s.params d) } := rfl

theorem exec_encode (bs : List Byte) (s : State) :
    exec (.encode bs) s = .next { s with result := .pulses (pulsesOfBytes s.params bs) } := rfl

theorem exec_decode (ps : List Pulse) (s : State) :
    exec (.decode ps) s = .next { s with result := resultOfDecode (decodeTrain s.params ps) } := rfl

/-- Settles O25: the symbol's two durations are selected by the bit. -/
theorem encodeBitIsHighThenLow : Obligations.EncodeBitIsHighThenLow := by
  intro s v
  rw [exec_encodeBit]
  cases v <;> rfl

/-- Pulses `2m` and `2m + 1` of a run of symbols are those of its bit `m`. -/
theorem symbols_getElem? {bits : List Bool} {m : Nat} {v : Bool} (p : Params) (h : bits[m]? = some v) :
    (bits.flatMap (pulsesOfBit p))[2 * m]? = some ⟨true, highTicks p v⟩ ∧
      (bits.flatMap (pulsesOfBit p))[2 * m + 1]? = some ⟨false, lowTicks p v⟩ := by
  induction bits generalizing m with
  | nil => cases h
  | cons w bits ih =>
    cases m with
    | zero =>
      cases h
      exact ⟨rfl, rfl⟩
    | succ m => exact ih h

/-- Bit `k` of a byte in sending order is its bit `7 - k` (20 R65). -/
theorem bitsOf_getElem? (d : Byte) {k : Nat} (h : k < 8) : (bitsOf d)[k]? = some (d.getLsbD (7 - k)) := by
  interval_cases k <;> rfl

/-- Bit `m` of a byte list in sending order is bit `7 - m % 8` of byte `m / 8` (40 R123). -/
theorem flatMap_bitsOf_getElem? (bs : List Byte) (m : Nat) :
    (bs.flatMap bitsOf)[m]? = bs[m / 8]?.map fun d => d.getLsbD (7 - m % 8) := by
  induction bs generalizing m with
  | nil => rfl
  | cons d bs ih =>
    rw [List.flatMap_cons]
    rcases Nat.lt_or_ge m 8 with hm | hm
    · rw [List.getElem?_append_left hm, bitsOf_getElem? d hm, Nat.div_eq_of_lt hm, Nat.mod_eq_of_lt hm]
      rfl
    · obtain ⟨n, rfl⟩ := Nat.exists_eq_add_of_le' hm
      rw [List.getElem?_append_right hm, Nat.add_div_right n (by decide), Nat.add_mod_right, List.getElem?_cons_succ]
      exact ih n

/-- Settles O26: the byte's pulses are the symbols of its bits in sending order. -/
theorem encodeByteIsMostSignificantBitFirst : Obligations.EncodeByteIsMostSignificantBitFirst := fun s d =>
  ⟨_, exec_encodeByte d s, length_pulsesOfByte s.params d, fun _ hk => symbols_getElem? s.params (bitsOf_getElem? d hk)⟩

/-- Settles O27: the pulses of a byte list are the symbols of its bits in sending order. -/
theorem encodeEmitsEveryBitInOrder : Obligations.EncodeEmitsEveryBitInOrder := by
  intro s bs
  refine ⟨_, exec_encode bs s, length_pulsesOfBytes s.params bs, fun m hm => ?_⟩
  have hbit : (bs.flatMap bitsOf)[m]? = some (bs[m / 8].getLsbD (7 - m % 8)) := by
    rw [flatMap_bitsOf_getElem?, List.getElem?_eq_getElem hm, Option.map_some]
  rw [pulsesOfBytes_eq_bits]
  exact symbols_getElem? s.params hbit

/-! ### Decoding a pulse train (40 R126, R127) -/

theorem decodeBits_cons_cons (p : Params) (a b : Pulse) (rest : List Pulse) :
    decodeBits p (a :: b :: rest) = (decodeBit p a b).bind fun v => (decodeBits p rest).map (v :: ·) := by
  rw [decodeBits]
  cases decodeBit p a b <;> cases decodeBits p rest <;> rfl

/-- A run of symbols decodes to its bits, if the two symbols differ. -/
theorem decodeBits_symbols {p : Params} (h : (p.t0h, p.t0l) ≠ (p.t1h, p.t1l)) (bits : List Bool) :
    decodeBits p (bits.flatMap (pulsesOfBit p)) = some bits := by
  induction bits with
  | nil => rfl
  | cons v bits ih =>
    rw [List.flatMap_cons, pulsesOfBit, List.cons_append, List.cons_append, List.nil_append, decodeBits_cons_cons,
      decodeBit_symbol h, ih]
    rfl

/-- A train that decodes to bits is the run of their symbols. -/
theorem symbols_of_decodeBits {p : Params} {ps : List Pulse} {bits : List Bool} (h : decodeBits p ps = some bits) :
    bits.flatMap (pulsesOfBit p) = ps := by
  induction ps using List.twoStepInduction generalizing bits with
  | nil =>
    cases h
    rfl
  | singleton => cases h
  | cons_cons a b rest ih =>
    rw [decodeBits_cons_cons, Option.bind_eq_some_iff] at h
    obtain ⟨v, hv, h⟩ := h
    obtain ⟨vs, hvs, rfl⟩ := Option.map_eq_some_iff.1 h
    rw [List.flatMap_cons, ih hvs, ← symbol_of_decodeBit hv]
    rfl

/-- The bits of a byte put together are the bits it was put together from. -/
theorem bitsOf_byteOf (v7 v6 v5 v4 v3 v2 v1 v0 : Bool) :
    bitsOf (byteOf v7 v6 v5 v4 v3 v2 v1 v0) = [v7, v6, v5, v4, v3, v2, v1, v0] := by
  revert v7 v6 v5 v4 v3 v2 v1 v0
  decide

theorem packBytes_bitsOf_append (d : Byte) (bits : List Bool) :
    packBytes (bitsOf d ++ bits) = (packBytes bits).map (d :: ·) := by
  conv_rhs => rw [← byteOf_bits d]
  rfl

/-- The bits of a byte list pack to the list. -/
theorem packBytes_flatMap_bitsOf (bs : List Byte) : packBytes (bs.flatMap bitsOf) = some bs := by
  induction bs with
  | nil => rfl
  | cons d bs ih =>
    rw [List.flatMap_cons, packBytes_bitsOf_append, ih]
    rfl

/-- Bits that pack to bytes are the bits of those bytes. -/
theorem flatMap_bitsOf_of_packBytes {bits : List Bool} {bs : List Byte} (h : packBytes bits = some bs) :
    bs.flatMap bitsOf = bits := by
  induction bits using packBytes.induct generalizing bs with
  | case1 =>
    cases h
    rfl
  | case2 v7 v6 v5 v4 v3 v2 v1 v0 rest ih =>
    obtain ⟨ds, hds, rfl⟩ := Option.map_eq_some_iff.1 h
    rw [List.flatMap_cons, bitsOf_byteOf, ih hds]
    rfl
  | case3 v rest hshort =>
    rw [packBytes] at h
    · cases h
    · exact hshort

/-- DECODE yields exactly the bytes that ENCODE turns into the train (40 R126, R127). -/
theorem decodeTrain_eq_some_iff {p : Params} (hne : (p.t0h, p.t0l) ≠ (p.t1h, p.t1l)) (ps : List Pulse)
    (bs : List Byte) : decodeTrain p ps = some bs ↔ pulsesOfBytes p bs = ps := by
  rw [decodeTrain, Option.bind_eq_some_iff, pulsesOfBytes_eq_bits]
  constructor
  · rintro ⟨bits, hbits, hbs⟩
    rw [flatMap_bitsOf_of_packBytes hbs, symbols_of_decodeBits hbits]
  · rintro rfl
    exact ⟨_, decodeBits_symbols hne _, packBytes_flatMap_bitsOf bs⟩

theorem resultOfDecode_eq_bytes_iff {o : Option (List Byte)} {bs : List Byte} :
    resultOfDecode o = .bytes bs ↔ o = some bs := by
  cases o <;> simp [resultOfDecode]

/-- An answer that is no bytes is `fail`. -/
theorem resultOfDecode_eq_fail_of_forall {o : Option (List Byte)} (h : ∀ bs, resultOfDecode o ≠ .bytes bs) :
    resultOfDecode o = .fail := by
  cases o with
  | none => rfl
  | some bs => exact absurd rfl (h bs)

/-- ENCODE answers a train exactly if the train is the pulses of the bytes (40 R123). -/
theorem exec_encode_eq_iff {bs : List Byte} {s : State} {ps : List Pulse} :
    exec (.encode bs) s = .next { s with result := .pulses ps } ↔ pulsesOfBytes s.params bs = ps := by
  rw [exec_encode]
  constructor
  · intro h
    injection h with h
    exact OpResult.pulses.inj (congrArg State.result h)
  · rintro rfl
    rfl

/-- Settles O28: DECODE and ENCODE are inverse to each other on trains, and a train of ENCODE has 16 pulses a byte. -/
theorem decodeAcceptsExactlyTheEncodedTrains : Obligations.DecodeAcceptsExactlyTheEncodedTrains := by
  intro s ps hne
  have hbytes : ∀ bs, resultOfDecode (decodeTrain s.params ps) = .bytes bs ↔ pulsesOfBytes s.params bs = ps :=
    fun bs => resultOfDecode_eq_bytes_iff.trans (decodeTrain_eq_some_iff hne ps bs)
  refine ⟨_, exec_decode ps s, fun bs => (hbytes bs).trans exec_encode_eq_iff.symm,
    resultOfDecode_eq_fail_of_forall, fun hlen => resultOfDecode_eq_fail_of_forall fun bs hbs => hlen ?_⟩
  rw [← (hbytes bs).1 hbs, length_pulsesOfBytes, Nat.mul_mod_right]

/-- Settles O29: the train of the bytes is one DECODE accepts, with those bytes. -/
theorem decodeOfEncodedBytesIsTheBytes : Obligations.DecodeOfEncodedBytesIsTheBytes := by
  intro s bs hne
  refine ⟨_, exec_encode bs s, ?_⟩
  rw [exec_decode, (decodeTrain_eq_some_iff hne _ bs).2 rfl]
  rfl

end Sys2Proof.Machine

/-! ### A transmission starts with an accepted tick only (41 R143) -/

namespace Sys2Proof.Machine

/-- An edge without a command starts no transmission (44 R238). -/
theorem nopEdge_mode_ne_tx {s : State} (h : s.mode ≠ .tx) : (nopEdge s).mode ≠ .tx := by
  rcases mode_cases s.mode with hm | hm | hm | hm
  · rw [nopEdge_of_init hm]
    split
    · simp
    · exact nofun
  · simp [nopEdge_of_wait hm, hm]
  · exact absurd hm h
  · simp [nopEdge_of_halted hm, hm]

/-- Every effect but the accept edge leaves the mode as it was, or sets another one than TX, or was in TX already. -/
theorem Effect.accept_of_enters_tx {i : Instr} {s t : State} (h : Effect i s t) (hs : s.mode ≠ .tx)
    (ht : t.mode = .tx) : s.mode = .wait ∧ ∃ (sample : Int) (now : Nat), i = .tick sample now := by
  have hkept {u : State} (he : t = u) (hu : u.mode = s.mode) : False := hs (hu ▸ he ▸ ht)
  cases h with
  | reset _ he => exact absurd (he ▸ ht) nofun
  | edge _ he => exact absurd (he ▸ ht) (nopEdge_mode_ne_tx hs)
  | accept sample now hi hm _ => exact ⟨hm, sample, now, hi⟩
  | sensorHalt _ _ _ he => exact absurd (he ▸ ht) (by simp)
  | sensorSkip _ _ _ he => exact (hkept he rfl).elim
  | ctrl cur now _ _ he => exact (hkept he (ctrlUpdate_mode cur now s)).elim
  | tickEnd _ _ he => exact (hkept he rfl).elim
  | transmit _ hm _ _ => exact absurd hm hs
  | halt _ _ _ hh he =>
    by_cases hm : s.mode = .halted
    · exact (hkept (hh hm) rfl).elim
    · obtain ⟨w, rfl⟩ := he hm
      cases ht
  | paint _ _ _ he => exact (hkept he rfl).elim
  | wire _ _ he => exact (hkept he rfl).elim
  | value _ he => exact (hkept he rfl).elim

/-- Settles O55: the inversion lemma of `exec` names the accept edge alone as a way into mode TX. -/
theorem onlyAnAcceptedTickStartsTransmitting : Obligations.OnlyAnAcceptedTickStartsTransmitting :=
  fun _ _ _ h hs ht => (effect_of_exec h).accept_of_enters_tx hs ht

/-! ### Where TRANSMIT has an effect (41 R141, 93 U3) -/

section
variable {s : State} {snap : List Byte}

theorem exec_transmit_of_length_ne (h : snap.length ≠ s.params.frameBytes) :
    exec (.transmit snap) s = .refused (.frameLength snap.length) := if_neg h

theorem exec_transmit_of_not_tx (h : snap.length = s.params.frameBytes) (hm : s.mode ≠ .tx) :
    exec (.transmit snap) s = .refused .transmitOutsideTick := (if_pos h).trans (if_neg hm)

theorem exec_transmit_of_tx (h : snap.length = s.params.frameBytes) (hm : s.mode = .tx) :
    exec (.transmit snap) s = .next (transmitInTx snap s) := (if_pos h).trans (if_pos hm)

/-- A call into a transmission under way, or with a list of other colours, is dropped (41 R143, 20 R75). -/
theorem transmitInTx_of_not_own (h : s.seq.phase ≠ .load ∨ snap ≠ snapshotOf s.params s.fb) :
    transmitInTx snap s = s := if_neg (not_and_or.2 h)

end

/-- Settles O34: TRANSMIT asks for the length, then for the mode, then for the tick's own call. -/
theorem transmitHasNoEffectOutsideItsContract : Obligations.TransmitHasNoEffectOutsideItsContract := by
  intro s snap
  refine ⟨exec_transmit_of_length_ne, fun hl hm => exec_transmit_of_not_tx hl ?_, fun hl hm hown => ?_⟩
  · rcases hm with hm | hm | hm <;> simp [hm]
  · rw [exec_transmit_of_tx hl hm, transmitInTx_of_not_own hown]

/-! ### The sequencer under a command (41 R150 to R155) -/

/-- What every edge in mode TX does first: the cycle that ends is recorded and the strobes are cleared (41 R156,
10 R28). -/
def endCycle (s : State) : State := { s with tickDone := false, sensorWarn := false, wire := (recordTick s).wire }

@[simp] theorem endCycle_params (s : State) : (endCycle s).params = s.params := rfl

@[simp] theorem endCycle_fb (s : State) : (endCycle s).fb = s.fb := rfl

@[simp] theorem endCycle_mode (s : State) : (endCycle s).mode = s.mode := rfl

@[simp] theorem endCycle_seq (s : State) : (endCycle s).seq = s.seq := rfl

theorem clearStrobes_recordTick (s : State) : clearStrobes (recordTick s) = endCycle s := by
  unfold endCycle
  rw [recordTick_eq]
  split <;> rfl

/-- Every command with `rst = 0` steps the sequencer in mode TX, if no fault strikes (44 R238, R239). -/
theorem exec_command_of_tx {s : State} {i : Instr} (hi : isCommandWithoutReset i = true) (hm : s.mode = .tx)
    (hf : s.pins.txFault = false) :
    exec i s = .next (seqEdge (endCycle s)) := by
  rw [exec_eq_nopEdge hi (by simp [hm]), nopEdge_of_tx hm hf, clearStrobes_recordTick]

/-- `dout` is 0 in every phase but TX_HIGH (10 R34). -/
theorem dout_of_phase_ne_high {s : State} (h : s.seq.phase ≠ .high) : dout s = false := decide_eq_false h

/-- The last wire byte of a strip of 14 pixels (20 R62). -/
theorem lastByte_of_ledCount {p : Params} (h : p.ledCount = 14) : p.lastByte = 41 := by
  rw [Params.lastByte, Params.frameBytes, h]

/-- Settles O14: one step of the sequencer from TX_LOAD. -/
theorem loadCycleStartsTheFirstBit : Obligations.LoadCycleStartsTheFirstBit := by
  intro s i hi hm hf hp
  refine ⟨dout_of_phase_ne_high (by simp [hp]), _, exec_command_of_tx hi hm hf, ?_⟩
  rw [seqEdge_of_load (s := endCycle s) hp]
  exact ⟨rfl, rfl, rfl, rfl⟩

/-- Settles O15: one step of the sequencer from TX_HIGH. -/
theorem highPulseCountsDownThenFalls : Obligations.HighPulseCountsDownThenFalls := by
  intro s i hi hm hf hp
  refine ⟨decide_eq_true hp, _, exec_command_of_tx hi hm hf, ?_⟩
  rw [seqEdge_of_high (s := endCycle s) hp]
  exact ⟨rfl, rfl, rfl, rfl⟩

/-- The position after the last tick of a low pulse: the latch after the last bit of the frame, else the next bit
(41 R154). -/
def afterLow (p : Params) (fb : FrameBuffer) (byteIdx : Nat) (bitIdx : Fin 8) : Seq :=
  match successor p byteIdx bitIdx with
  | none => ⟨.latch, p.lastByte, 0, p.tLatch⟩
  | some (k, j) => ⟨.high, k, j, highTicks p (curBit fb k j)⟩

section
variable {p : Params} {k : Nat}

/-- The next position in wire order is one further, and the latch follows the last one alone (41 R149, R154). -/
theorem afterLow_cases (fb : FrameBuffer) (hk : k < p.frameBytes) (j : Fin 8) :
    (k = p.lastByte ∧ j = 0 ∧ afterLow p fb k j = ⟨.latch, p.lastByte, 0, p.tLatch⟩) ∨
      ∃ k' j', 8 * k' + (7 - j'.val) = 8 * k + (7 - j.val) + 1 ∧ k' < p.frameBytes ∧
        afterLow p fb k j = ⟨.high, k', j', highTicks p (curBit fb k' j')⟩ := by
  unfold afterLow
  rcases successor_cases hk j with ⟨hn, hlast, hbit⟩ | ⟨k', j', hn, hk', hnext⟩
  · exact .inl ⟨hlast, hbit, by rw [hn]⟩
  · exact .inr ⟨k', j', hnext, hk', by rw [hn]⟩

/-- No position of the frame comes after the last one. -/
theorem not_last_of_next {j j' : Fin 8} {k' : Nat} (hk' : k' < p.frameBytes)
    (h : 8 * k' + (7 - j'.val) = 8 * k + (7 - j.val) + 1) : ¬ (k = p.lastByte ∧ j = 0) := by
  rintro ⟨rfl, rfl⟩
  have h7 : 7 - ((0 : Fin 8) : Nat) = 7 := rfl
  rw [h7, Params.lastByte] at h
  omega

end

theorem seqEdge_of_low_done {s : State} (h : s.seq.phase = .low) (hc : s.seq.cnt ≤ 1) :
    seqEdge s = { s with seq := afterLow s.params s.fb s.seq.byteIdx s.seq.bitIdx } := by
  rw [seqEdge_of_low h, if_neg (Nat.not_lt.2 hc)]
  rfl

theorem seqEdge_of_low_count {s : State} (h : s.seq.phase = .low) (hc : 1 < s.seq.cnt) :
    seqEdge s = { s with seq := ⟨.low, s.seq.byteIdx, s.seq.bitIdx, s.seq.cnt - 1⟩ } := by
  rw [seqEdge_of_low h, if_pos hc]

/-- Settles O16: one step of the sequencer from TX_LOW, by the count and then by the position that follows. -/
theorem lowPulseCountsDownThenNextBitOrLatch : Obligations.LowPulseCountsDownThenNextBitOrLatch := by
  intro s i hi hm hf hp hk
  refine ⟨lastByte_of_ledCount, dout_of_phase_ne_high (by simp [hp]), _, exec_command_of_tx hi hm hf, ?_⟩
  by_cases hc : 1 < s.seq.cnt
  · rw [seqEdge_of_low_count (s := endCycle s) hp hc]
    exact ⟨rfl, rfl, rfl, fun _ => rfl, fun h => absurd hc (Nat.not_lt.2 h), fun h => absurd hc (Nat.not_lt.2 h)⟩
  · rw [seqEdge_of_low_done (s := endCycle s) hp (Nat.le_of_not_lt hc)]
    refine ⟨rfl, rfl, rfl, fun h => absurd h hc, fun _ hlast hbit => ?_, fun _ hnot => ?_⟩
    · rcases afterLow_cases s.fb hk s.seq.bitIdx with ⟨-, -, h⟩ | ⟨k', j', hnext, hk', -⟩
      · exact h
      · exact absurd ⟨hlast, hbit⟩ (not_last_of_next hk' hnext)
    · rcases afterLow_cases s.fb hk s.seq.bitIdx with ⟨hlast, hbit, -⟩ | ⟨k', j', hnext, -, h⟩
      · exact absurd ⟨hlast, hbit⟩ hnot
      · rw [endCycle_params, endCycle_fb, endCycle_seq, h]
        exact ⟨rfl, hnext, rfl⟩

/-- Settles O17: one step of the sequencer from TX_LATCH, by the count. -/
theorem latchCountsDownThenCompletesTheTick : Obligations.LatchCountsDownThenCompletesTheTick := by
  intro s i hi hm hf hp
  refine ⟨lastByte_of_ledCount, dout_of_phase_ne_high (by simp [hp]), _, exec_command_of_tx hi hm hf, ?_⟩
  by_cases hc : 1 < s.seq.cnt
  · rw [seqEdge_of_latch_count (s := endCycle s) hp hc, if_pos hc]
    rfl
  · rw [seqEdge_of_latch_done (s := endCycle s) hp (Nat.le_of_not_lt hc), if_neg hc]
    rfl

/-! ### The record of a cycle (41 R156, R157) -/

/-- The level of the cycle that ends, if a pulse or the latch was on the line in mode TX (41 R156). -/
def cycleLevel (s : State) : List Bool :=
  if s.mode = .tx ∧ (s.seq.phase = .high ∨ s.seq.phase = .low ∨ s.seq.phase = .latch) then [dout s] else []

/-- What is on record after an edge that records the cycle that ends. -/
theorem levels_recordTick (s : State) :
    levels (recordTick s).wire.reverse = levels (wireTrace s) ++ cycleLevel s := by
  have hphase : (s.seq.phase ≠ .load ∧ s.seq.phase ≠ .idle) ↔
      (s.seq.phase = .high ∨ s.seq.phase = .low ∨ s.seq.phase = .latch) := by
    cases s.seq.phase <;> simp
  simp only [recordTick_eq, cycleLevel, hphase]
  split
  · exact levels_emit s.wire ⟨dout s, 1⟩
  · rw [List.append_nil, wireTrace]

@[simp] theorem recordTick_wire_of_not_tx {s : State} (h : s.mode ≠ .tx) : (recordTick s).wire = s.wire := by
  rw [recordTick_of_not_tx h]

/-- An edge without a command leaves the cycle that ends on record, in every mode. -/
theorem nopEdge_wire (s : State) : (nopEdge s).wire = (recordTick s).wire := by
  rcases mode_cases s.mode with hm | hm | hm | hm
  · rw [nopEdge_of_init hm, recordTick_of_not_tx (by simp [hm])]
    split <;> simp
  · simp [nopEdge_of_wait hm, hm]
  · cases hf : s.pins.txFault
    · simp [nopEdge_of_tx hm hf]
    · simp [nopEdge_of_tx_fault hm hf]
  · simp [nopEdge_of_halted hm, hm]

/-- A failed read, too, leaves the cycle that ends on record, in every mode. -/
theorem tickSfaultEdge_wire (s : State) : (tickSfaultEdge s).wire = (recordTick s).wire := by
  unfold tickSfaultEdge
  split
  · next hm =>
    rw [recordTick_of_not_tx (by simp [hm])]
    split <;> simp
  · exact nopEdge_wire s

/-- Settles O18: each command but an accepted tick is an edge that leaves the cycle that ends on record. -/
theorem everyCommandRecordsTheCycleThatEnds : Obligations.EveryCommandRecordsTheCycleThatEnds := by
  intro s i hi htick
  suffices h : ∃ t, exec i s = .next t ∧ t.wire = (recordTick s).wire by
    obtain ⟨t, ht, hw⟩ := h
    exact ⟨t, ht, by rw [wireTrace, hw]; exact levels_recordTick s⟩
  cases i with
  | reset => exact ⟨_, rfl, rfl⟩
  | nop => exact ⟨_, rfl, nopEdge_wire s⟩
  | tick sample now =>
    have hm : s.mode ≠ .wait := fun hm => htick hm sample now rfl
    exact ⟨_, exec_eq_nopEdge rfl hm, nopEdge_wire s⟩
  | tickSfault => exact ⟨_, rfl, tickSfaultEdge_wire s⟩
  | _ => cases hi

/-- A transmission fault at an edge in mode TX (41 R157): the cycle that ends is recorded, and then the block halts. -/
theorem nopEdge_of_tx_fault_eq {s : State} (hm : s.mode = .tx) (hf : s.pins.txFault = true) :
    nopEdge s = haltedWith .txFault (recordTick s).wire s := by
  rw [nopEdge_of_tx_fault hm hf, clearStrobes_recordTick, raiseFatal_of_not_halted (by simp [hm])]
  rfl

/-- In mode TX the level recorded is 1 for a high pulse, and 0 for a low pulse or the latch. -/
theorem cycleLevel_of_tx {s : State} (h : s.mode = .tx) :
    cycleLevel s =
      if s.seq.phase = .high then [true] else if s.seq.phase = .low ∨ s.seq.phase = .latch then [false] else [] := by
  rw [cycleLevel, dout]
  cases s.seq.phase <;> simp [h]

/-- Settles O19: the edge of a command with `rst = 0` raises the fault once the cycle that ends is on record. -/
theorem txFaultHaltsInsteadOfStepping : Obligations.TxFaultHaltsInsteadOfStepping := by
  intro s i hi hm hf
  refine ⟨_, exec_eq_nopEdge hi (by simp [hm]), ?_⟩
  rw [nopEdge_of_tx_fault_eq hm hf, ← cycleLevel_of_tx hm]
  exact ⟨rfl, levels_recordTick s, rfl⟩

end Sys2Proof.Machine

/-! ### TRANSMIT of the tick in progress (41 R141, R142, R157) -/

namespace Sys2Proof.Machine

/-- The length of a frame is that of its symbols and the latch (41 R148). -/
theorem ticksOf_frameTrain_eq_add (p : Params) (snap : List Byte) :
    ticksOf (frameTrain p snap) = ticksOf (pulsesOfBytes p snap) + p.tLatch := by
  simp [frameTrain, latchPulse]

/-- A fault numbered 0 or beyond the last cycle is never seen (30 R105). -/
theorem ticksBeforeFault_of_unseen {f : Option Nat} {total : Nat} (h : ∀ n, f = some n → n = 0 ∨ 1 + total < n) :
    ticksBeforeFault f total = none := by
  cases f with
  | none => rfl
  | some n =>
    have := h n rfl
    exact if_neg (by omega)

/-- A fault at the end of a cycle of the transmission lets through the ticks of the cycles before it (41 R157). -/
theorem ticksBeforeFault_of_seen {n total : Nat} (h1 : 1 ≤ n) (h2 : n ≤ 1 + total) :
    ticksBeforeFault (some n) total = some (n - 1) := if_pos ⟨h1, h2⟩

/-- What TRANSMIT leaves on record where no fault is seen: the frame without the level of the cycle under way. -/
def wireBeforeLastLevel (p : Params) (snap : List Byte) : List Pulse :=
  emitAll [] (pulsesOfBytes p snap ++ [⟨false, p.tLatch - 1⟩])

/-- The record and the level of the last cycle are the levels of the frame. -/
theorem levels_wireBeforeLastLevel {p : Params} (hwf : p.Wf) (snap : List Byte) :
    levels (wireBeforeLastLevel p snap).reverse ++ [false] = levels (frameTrain p snap) :=
  calc levels (wireBeforeLastLevel p snap).reverse ++ [false]
    _ = levels (emit (wireBeforeLastLevel p snap) ⟨false, 1⟩).reverse := (levels_emit _ ⟨false, 1⟩).symm
    _ = levels (emitAll [] (frameTrain p snap)).reverse :=
      congrArg (fun w : List Pulse => levels w.reverse) (emit_last_level (durationOk_tLatch hwf).1 snap)
    _ = levels (frameTrain p snap) := levels_emitAll [] _

section
variable {s : State} (hm : s.mode = .tx) (hp : s.seq.phase = .load)
include hm hp

/-- Where no fault is seen, TRANSMIT of the tick's snapshot runs to the last cycle of the latch (41 R142). -/
theorem exec_transmit_of_no_fault
    (hn : ticksBeforeFault s.pins.txFaultAt (ticksOf (frameTrain s.params (snapshotOf s.params s.fb))) = none) :
    exec (.transmit (snapshotOf s.params s.fb)) s =
      .next (lastLatchCycle (wireBeforeLastLevel s.params (snapshotOf s.params s.fb)) s) := by
  rw [exec_transmit_of_tx (length_snapshotOf _ _) hm, transmitInTx_of_load hp hn]
  rfl

/-- A fault cuts TRANSMIT of the tick's snapshot after the ticks it lets through (41 R157). -/
theorem exec_transmit_of_fault {k : Nat}
    (hn : ticksBeforeFault s.pins.txFaultAt (ticksOf (frameTrain s.params (snapshotOf s.params s.fb))) = some k) :
    exec (.transmit (snapshotOf s.params s.fb)) s =
      .next (haltedWith .txFault
        (emitAll [] (takeTicks k (frameTrain s.params (snapshotOf s.params s.fb)))) s) := by
  rw [exec_transmit_of_tx (length_snapshotOf _ _) hm, transmitInTx, if_pos ⟨hp, rfl⟩, transmitTick, hn]
  exact congrArg _ (raiseFatal_of_not_halted (by simp [hm]))

end

/-- Settles O30: the fault's cycle decides between the whole frame, completed by the next edge, and what was sent before
the fault. -/
theorem transmitPutsTheTrainOnTheWire : Obligations.TransmitPutsTheTrainOnTheWire := by
  intro s hwf hm hp
  have htotal := ticksOf_frameTrain_eq_add s.params (snapshotOf s.params s.fb)
  refine ⟨_, _, rfl, exec_encode _ s, fun hunseen => ?_, fun n hn h1 h2 => ?_⟩
  · have hnone : ticksBeforeFault s.pins.txFaultAt (ticksOf (frameTrain s.params (snapshotOf s.params s.fb))) = none :=
      ticksBeforeFault_of_unseen fun n hn => by
        rw [htotal, ← Nat.add_assoc]
        exact hunseen n hn
    exact ⟨_, _, exec_transmit_of_no_fault hm hp hnone, rfl, levels_wireBeforeLastLevel hwf _,
      exec_nop_after_transmit _ hwf hm, rfl, rfl, reverse_emitAll_nil _⟩
  · have hsome := ticksBeforeFault_of_seen h1 (htotal ▸ Nat.add_assoc _ _ _ ▸ h2)
    refine ⟨_, exec_transmit_of_fault hm hp (hn ▸ hsome), ?_, rfl⟩
    exact (levels_emitAll [] _).trans (levels_takeTicks (n - 1) _)

/-! ### A tick as one TRANSMIT (41 R141 to R143) -/

theorem exec_tick_of_wait {s : State} (sample : Int) (now : Nat) (h : s.mode = .wait) :
    exec (.tick sample now) s = .next (acceptTick sample now s) := congrArg _ (if_pos h)

@[simp] theorem acceptTick_sensorWarn (sample : Int) (now : Nat) (s : State) :
    (acceptTick sample now s).sensorWarn = false := ctrlUpdate_sensorWarn sample now (clearStrobes s)

/-- The completion edge after TRANSMIT, on a state whose `sensor_warn` is clear (41 R155, 43 R204). -/
theorem completeTick_lastLatchCycle {s : State} (wire : List Pulse) (h : s.sensorWarn = false) :
    completeTick (lastLatchCycle wire s) =
      { s with
        mode := .wait, seq := Seq.rest, prevSample := s.curSample, baselineValid := true, tickDone := true,
        wire := wire } := by
  rw [h]
  rfl

/-- Settles O31: TRANSMIT asks for mode TX, which the accept edge sets, and the edge after it is the completion edge. -/
theorem transmitIsEnteredByAnAcceptedTickOnly : Obligations.TransmitIsEnteredByAnAcceptedTickOnly := by
  intro s sample now hwf hm
  constructor
  · intro snap
    by_cases hl : snap.length = s.params.frameBytes
    · exact ⟨_, exec_transmit_of_not_tx hl (by simp [hm]), fun _ => rfl⟩
    · exact ⟨_, exec_transmit_of_length_ne hl, fun h => absurd h hl⟩
  · obtain ⟨t, ht⟩ : ∃ t, t = acceptTick sample now s := ⟨_, rfl⟩
    have hparams : t.params = s.params := by rw [ht, acceptTick_params]
    have hmode : t.mode = .tx := by rw [ht]; rfl
    have hphase : t.seq.phase = .load := by rw [ht]; rfl
    have hcur : t.curSample = sample := by rw [ht]; rfl
    have hwarn : t.sensorWarn = false := by rw [ht, acceptTick_sensorWarn]
    have htransmit := exec_transmit_of_no_fault (s := { t with pins := {} }) hmode hphase rfl
    have hcomplete := exec_nop_after_transmit (s := { t with pins := {} })
      (snapshotOf t.params t.fb) (hparams ▸ hwf) hmode
    refine ⟨t, _, _, ht ▸ exec_tick_of_wait sample now hm, htransmit, hmode, decide_eq_true hmode, hcomplete, ?_,
      ?_⟩
    · refine (completeTick_lastLatchCycle (s := { t with pins := {} }) _ hwarn).trans ?_
      rw [← hcur]
      rfl
    · rw [← hparams]
      exact reverse_emitAll_nil _

/-! ### The runs of a frame (41 R147) -/

/-- Neighbouring pulses of a run of symbols differ in level, and a high pulse may stand after it. -/
theorem alternating_symbols_append (p : Params) (bits : List Bool) {q : Pulse} {train : List Pulse}
    (hq : q.level = true) (h : Alternating (q :: train)) :
    Alternating (bits.flatMap (pulsesOfBit p) ++ q :: train) := by
  induction bits with
  | nil => exact h
  | cons v bits ih =>
    have hlow : Alternating (⟨false, lowTicks p v⟩ :: (bits.flatMap (pulsesOfBit p) ++ q :: train)) := by
      cases bits with
      | nil => exact List.isChain_cons_cons.2 ⟨by simp [hq], ih⟩
      | cons w bits => exact List.isChain_cons_cons.2 ⟨by simp, ih⟩
    exact List.isChain_cons_cons.2 ⟨by simp, hlow⟩

/-- The runs of a frame whose last bit is `v`: two for each bit before it, the high pulse of `v`, and its low pulse
together with the latch (41 R147). -/
theorem runs_symbols_latch (p : Params) (bits : List Bool) (v : Bool) :
    runs ((bits ++ [v]).flatMap (pulsesOfBit p) ++ [latchPulse p]) =
      bits.flatMap (pulsesOfBit p) ++ [⟨true, highTicks p v⟩, ⟨false, lowTicks p v + p.tLatch⟩] := by
  have halternating : Alternating [⟨true, highTicks p v⟩, ⟨false, lowTicks p v + p.tLatch⟩] := by
    simp [Alternating]
  have hmerge := runs_merge (bits.flatMap (pulsesOfBit p) ++ [⟨true, highTicks p v⟩]) [] false (lowTicks p v)
    p.tLatch
  rw [← runs_of_alternating (alternating_symbols_append p bits rfl halternating)]
  simpa [pulsesOfBit, latchPulse] using hmerge

/-- The bits of the frame in sending order (20 R65, 40 R123). -/
def frameBitsOf (p : Params) (fb : FrameBuffer) : List Bool := (snapshotOf p fb).flatMap bitsOf

@[simp] theorem length_frameBitsOf (p : Params) (fb : FrameBuffer) : (frameBitsOf p fb).length = p.frameBits := by
  rw [frameBitsOf, length_flatMap_bitsOf, length_snapshotOf, Params.frameBits]

/-- The frame is the symbols of its bits, then the latch (41 R141). -/
theorem frameTrain_eq_symbols (p : Params) (fb : FrameBuffer) :
    frameTrain p (snapshotOf p fb) = (frameBitsOf p fb).flatMap (pulsesOfBit p) ++ [latchPulse p] := by
  rw [frameTrain, pulsesOfBytes_eq_bits, frameBitsOf]

/-- The place of a wire position in sending order. -/
def bitIndex (byteIdx : Nat) (bitIdx : Fin 8) : Nat := 8 * byteIdx + (7 - bitIdx.val)

/-- The bit at a position of the frame is `CurBit` (41 R149). -/
theorem frameBitsOf_getElem? {p : Params} (fb : FrameBuffer) {k : Nat} (hk : k < p.frameBytes) (j : Fin 8) :
    (frameBitsOf p fb)[bitIndex k j]? = some (curBit fb k j) := by
  have hj := j.isLt
  have hdiv : bitIndex k j / 8 = k := by unfold bitIndex; omega
  have hmod : 7 - bitIndex k j % 8 = j.val := by unfold bitIndex; omega
  rw [frameBitsOf, flatMap_bitsOf_getElem?, hdiv, hmod, snapshotOf_getElem? fb hk]
  rfl

/-- The last position of the frame is its last bit. -/
theorem bitIndex_lastByte {p : Params} (hwf : p.Wf) : bitIndex p.lastByte 0 + 1 = p.frameBits := by
  have h := lastByte_lt_frameBytes hwf
  have h7 : 7 - ((0 : Fin 8) : Nat) = 7 := rfl
  rw [bitIndex, Params.frameBits, h7]
  unfold Params.lastByte at h ⊢
  omega

/-- The frame's bits end with bit 0 of the last byte. -/
theorem frameBitsOf_eq_append {p : Params} (hwf : p.Wf) (fb : FrameBuffer) :
    frameBitsOf p fb = (frameBitsOf p fb).take (bitIndex p.lastByte 0) ++ [curBit fb p.lastByte 0] := by
  have hlast := frameBitsOf_getElem? fb (lastByte_lt_frameBytes hwf) 0
  have hlen : bitIndex p.lastByte 0 + 1 = (frameBitsOf p fb).length := by
    rw [length_frameBitsOf, bitIndex_lastByte hwf]
  calc frameBitsOf p fb
    _ = (frameBitsOf p fb).take (bitIndex p.lastByte 0 + 1) := by rw [hlen, List.take_length]
    _ = _ := by rw [List.take_add_one, hlast]; rfl

/-- What a whole frame leaves on record, newest run first. -/
theorem emitAll_frameTrain {p : Params} (hwf : p.Wf) (fb : FrameBuffer) :
    emitAll [] (frameTrain p (snapshotOf p fb)) =
      ⟨false, lowTicks p (curBit fb p.lastByte 0) + p.tLatch⟩ :: ⟨true, highTicks p (curBit fb p.lastByte 0)⟩ ::
        (((frameBitsOf p fb).take (bitIndex p.lastByte 0)).flatMap (pulsesOfBit p)).reverse := by
  apply List.reverse_injective
  rw [reverse_emitAll_nil, frameTrain_eq_symbols, frameBitsOf_eq_append hwf, runs_symbols_latch]
  simp [← frameBitsOf_eq_append hwf]

/-- A run of symbols has two pulses a bit. -/
theorem length_symbols (p : Params) (bits : List Bool) : (bits.flatMap (pulsesOfBit p)).length = 2 * bits.length := by
  simp [List.length_flatMap, pulsesOfBit, Nat.mul_comm]

theorem length_emitAll_frameTrain {p : Params} (hwf : p.Wf) (fb : FrameBuffer) :
    (emitAll [] (frameTrain p (snapshotOf p fb))).length = 2 * p.frameBits := by
  have hbits := bitIndex_lastByte hwf
  rw [emitAll_frameTrain hwf, List.length_cons, List.length_cons, List.length_reverse, length_symbols,
    List.length_take, length_frameBitsOf]
  omega

/-- Settles O32: the completion edge leaves the frame's runs on record, and they are known one by one. -/
theorem frameHasSixHundredSeventyTwoRuns : Obligations.FrameHasSixHundredSeventyTwoRuns := by
  intro s hwf hm hp hn
  have hlen := length_emitAll_frameTrain hwf s.fb
  refine ⟨_, _, exec_transmit_of_load hm hp hn, exec_nop_after_transmit _ hwf hm, hlen, fun h14 => ?_, ?_⟩
  · refine hlen.trans ?_
    rw [Params.frameBits, Params.frameBytes, h14]
  · exact congrArg List.head? (emitAll_frameTrain hwf s.fb)

end Sys2Proof.Machine

/-! ### The record of a list of levels (41 R147) -/

namespace Sys2Proof.Machine

/-- The record that levels leave on an empty wire, one protocol tick each. -/
def record (ls : List Bool) : List Pulse := emitAll [] (ls.map fun l => ⟨l, 1⟩)

theorem record_append_singleton (ls : List Bool) (l : Bool) : record (ls ++ [l]) = emit (record ls) ⟨l, 1⟩ := by
  rw [record, List.map_append, emitAll_append]
  rfl

/-- The record holds exactly those levels. -/
@[simp] theorem levels_record (ls : List Bool) : levels (record ls).reverse = ls := by
  rw [record, levels_emitAll]
  simp [levels, List.flatMap_map]

/-- A level held on is one longer run. -/
theorem emit_emit (w : List Pulse) (l : Bool) (a b : Nat) : emit (emit w ⟨l, a⟩) ⟨l, b⟩ = emit w ⟨l, a + b⟩ := by
  cases w with
  | nil => simp [emit]
  | cons last older =>
    by_cases h : last.level = l
    · simp [emit, h, Nat.add_assoc]
    · simp [emit, h]

/-- A pulse put on the wire tick by tick. -/
theorem emitAll_replicate (w : List Pulse) (l : Bool) (d : Nat) :
    emitAll w (List.replicate (d + 1) ⟨l, 1⟩) = emit w ⟨l, d + 1⟩ := by
  induction d with
  | zero => rfl
  | succ d ih =>
    rw [List.replicate_succ', emitAll_append, ih]
    exact emit_emit w l (d + 1) 1

/-- A train whose pulses last at least one tick each (00 R10). -/
def Lasting (train : List Pulse) : Prop := ∀ q ∈ train, 1 ≤ q.dur

/-- Such a train, put on the wire tick by tick. -/
theorem emitAll_levels {train : List Pulse} (h : Lasting train) (w : List Pulse) :
    emitAll w ((levels train).map fun l => ⟨l, 1⟩) = emitAll w train := by
  induction train generalizing w with
  | nil => rfl
  | cons q train ih =>
    obtain ⟨d, hd⟩ := Nat.exists_eq_add_of_le' (h q List.mem_cons_self)
    rw [levels_cons, List.map_append, List.map_replicate, emitAll_append, hd, emitAll_replicate, ← hd, emitAll_cons]
    exact ih (fun r hr => h r (List.mem_cons_of_mem q hr)) _

theorem record_levels {train : List Pulse} (h : Lasting train) : record (levels train) = emitAll [] train :=
  emitAll_levels h []

/-- Under legal parameters every pulse of a symbol lasts at least one tick (00 R7). -/
theorem lasting_pulsesOfBytes {p : Params} (hwf : p.Wf) (bs : List Byte) : Lasting (pulsesOfBytes p bs) := by
  intro q hq
  rw [pulsesOfBytes_eq_bits] at hq
  obtain ⟨v, -, hv⟩ := List.mem_flatMap.1 hq
  obtain rfl | rfl : q = ⟨true, highTicks p v⟩ ∨ q = ⟨false, lowTicks p v⟩ := by simpa [pulsesOfBit] using hv
  · exact (durationOk_highTicks hwf v).1
  · exact (durationOk_lowTicks hwf v).1

/-- So does every pulse of a symbol train with the line held low after it. -/
theorem lasting_pulsesOfBytes_append {p : Params} (hwf : p.Wf) (bs : List Byte) {d : Nat} (hd : 1 ≤ d) :
    Lasting (pulsesOfBytes p bs ++ [⟨false, d⟩]) := by
  intro q hq
  rcases List.mem_append.1 hq with h | h
  · exact lasting_pulsesOfBytes hwf bs q h
  · rw [List.mem_singleton.1 h]
    exact hd

/-! ### What is still to be sent at a position (41 R152 to R155) -/

/-- The symbols of the bits after a position, then the latch. -/
def trainAfter (p : Params) (fb : FrameBuffer) (byteIdx : Nat) (bitIdx : Fin 8) : List Pulse :=
  ((frameBitsOf p fb).drop (bitIndex byteIdx bitIdx + 1)).flatMap (pulsesOfBit p) ++ [latchPulse p]

/-- What follows the pulse under way at a position that counts down. -/
def owedRest (p : Params) (fb : FrameBuffer) (q : Seq) : List Pulse :=
  match q.phase with
  | .high => ⟨false, lowTicks p (curBit fb q.byteIdx q.bitIdx)⟩ :: trainAfter p fb q.byteIdx q.bitIdx
  | .low => trainAfter p fb q.byteIdx q.bitIdx
  | .latch => []
  | .load => []
  | .idle => []

/-- What is still to be sent at a position that counts down: the rest of the pulse under way, and what follows it. -/
def owed (p : Params) (fb : FrameBuffer) (q : Seq) : List Pulse :=
  ⟨decide (q.phase = .high), q.cnt⟩ :: owedRest p fb q

section
variable {p : Params} {fb : FrameBuffer} {k : Nat}

/-- At the start of a bit's high pulse the symbols of that bit and of all after it are owed. -/
theorem owed_bit_start (hk : k < p.frameBytes) (j : Fin 8) :
    owed p fb ⟨.high, k, j, highTicks p (curBit fb k j)⟩ =
      ((frameBitsOf p fb).drop (bitIndex k j)).flatMap (pulsesOfBit p) ++ [latchPulse p] := by
  rw [List.drop_eq_getElem?_toList_append, frameBitsOf_getElem? fb hk j]
  rfl

/-- At the start of the first bit the whole frame is owed (41 R152). -/
theorem owed_first_bit (hwf : p.Wf) :
    owed p fb ⟨.high, 0, 7, highTicks p (curBit fb 0 7)⟩ = frameTrain p (snapshotOf p fb) := by
  rw [owed_bit_start (Nat.zero_lt_of_lt (lastByte_lt_frameBytes hwf)), frameTrain_eq_symbols]
  rfl

/-- The position after a low pulse owes what followed that pulse (41 R154). -/
theorem owed_afterLow (hwf : p.Wf) (hk : k < p.frameBytes) (j : Fin 8) :
    owed p fb (afterLow p fb k j) = trainAfter p fb k j := by
  rcases afterLow_cases fb hk j with ⟨rfl, rfl, h⟩ | ⟨k', j', hnext, hk', h⟩
  · rw [h, trainAfter, bitIndex_lastByte hwf, ← length_frameBitsOf p fb, List.drop_length]
    rfl
  · have hindex : bitIndex k' j' = bitIndex k j + 1 := hnext
    rw [h, owed_bit_start hk', trainAfter, hindex]

theorem countsDown_first_bit (hwf : p.Wf) : CountsDown p ⟨.high, 0, 7, highTicks p (curBit fb 0 7)⟩ :=
  ⟨.inl rfl, durationOk_highTicks hwf _, Nat.zero_lt_of_lt (lastByte_lt_frameBytes hwf)⟩

theorem countsDown_afterLow (hwf : p.Wf) (hk : k < p.frameBytes) (j : Fin 8) :
    CountsDown p (afterLow p fb k j) := by
  rcases afterLow_cases fb hk j with ⟨-, -, h⟩ | ⟨k', j', -, hk', h⟩
  · rw [h]
    exact ⟨.inr (.inr ⟨rfl, rfl, rfl⟩), durationOk_tLatch hwf, lastByte_lt_frameBytes hwf⟩
  · rw [h]
    exact ⟨.inl rfl, durationOk_highTicks hwf _, hk'⟩

end

/-- A level held for one tick, and then for the rest of its duration. -/
theorem levels_cons_of_pos {l : Bool} {c : Nat} (h : 1 ≤ c) (train : List Pulse) :
    levels (⟨l, c⟩ :: train) = l :: levels (⟨l, c - 1⟩ :: train) := by
  obtain ⟨d, rfl⟩ := Nat.exists_eq_add_of_le' h
  rfl

/-- The level on the line at a position that counts down is the first that is owed (10 R34). -/
theorem levels_owed {p : Params} {fb : FrameBuffer} {q : Seq} (h : CountsDown p q) :
    levels (owed p fb q) =
      decide (q.phase = .high) :: levels (⟨decide (q.phase = .high), q.cnt - 1⟩ :: owedRest p fb q) := by
  obtain ⟨-, ⟨hpos, -⟩, -⟩ := h
  exact levels_cons_of_pos hpos _

/-- At such a position some level is still owed. -/
theorem levels_owed_ne_nil {p : Params} {fb : FrameBuffer} {q : Seq} (h : CountsDown p q) :
    levels (owed p fb q) ≠ [] := by
  rw [levels_owed h]
  exact List.cons_ne_nil _ _

/-- While the count is above 1 the sequencer only counts, whatever the pulse (41 R153 to R155). -/
theorem seqEdge_of_count {s : State} (h : CountsDown s.params s.seq) (hc : 1 < s.seq.cnt) :
    seqEdge s = { s with seq := ⟨s.seq.phase, s.seq.byteIdx, s.seq.bitIdx, s.seq.cnt - 1⟩ } := by
  obtain ⟨hp | hp | ⟨hp, hlast, hbit⟩, -⟩ := h
  · rw [seqEdge_of_high hp, if_pos hc, hp]
  · rw [seqEdge_of_low_count hp hc, hp]
  · rw [seqEdge_of_latch_count hp hc, hp, hlast, hbit]

/-- A cycle inside a frame: the position moves on and the level of the cycle is sent off; only in the last cycle of the
latch, where that level alone is owed, the tick completes (41 R153 to R155). -/
theorem seqEdge_of_countsDown {s : State} (hwf : s.params.Wf) (h : CountsDown s.params s.seq) :
    (∃ q, seqEdge s = { s with seq := q } ∧ CountsDown s.params q ∧
      levels (owed s.params s.fb s.seq) = dout s :: levels (owed s.params s.fb q)) ∨
    (s.seq = ⟨.latch, s.params.lastByte, 0, 1⟩ ∧ seqEdge s = completeTick s ∧
      levels (owed s.params s.fb s.seq) = [dout s]) := by
  obtain ⟨hphase, ⟨hpos, -⟩, hk⟩ := id h
  have hlevel : levels (owed s.params s.fb s.seq) =
      dout s :: levels (⟨dout s, s.seq.cnt - 1⟩ :: owedRest s.params s.fb s.seq) := levels_owed h
  by_cases hc : 1 < s.seq.cnt
  · exact .inl ⟨_, seqEdge_of_count h hc, h.pred hc, hlevel⟩
  · have hone : s.seq.cnt = 1 := by omega
    have hlast : levels (owed s.params s.fb s.seq) = dout s :: levels (owedRest s.params s.fb s.seq) := by
      rw [hlevel, hone]
      rfl
    rcases hphase with hp | hp | ⟨hp, hbyte, hbit⟩
    · refine .inl ⟨_, seqEdge_of_high hp, ?_⟩
      rw [if_neg hc, hlast, owedRest, hp]
      exact ⟨⟨.inr (.inl rfl), durationOk_lowTicks hwf _, hk⟩, rfl⟩
    · refine .inl ⟨_, seqEdge_of_low_done hp hone.le, countsDown_afterLow hwf hk _, ?_⟩
      rw [hlast, owedRest, hp, owed_afterLow hwf hk]
    · refine .inr ⟨?_, seqEdge_of_latch_done hp hone.le, ?_⟩
      · rw [← hp, ← hbyte, ← hbit, ← hone]
      · rw [hlast, owedRest, hp]
        rfl

/-! ### A frame cycle by cycle (41 R156, R157) -/

/-- The levels of the frame of the tick that starts in `s`. -/
def frameLevels (s : State) : List Bool := levels (frameTrain s.params (snapshotOf s.params s.fb))

theorem levels_wireTraceOf (s : State) :
    levels (wireTraceOf s.params (snapshotOf s.params s.fb)) = frameLevels s := levels_runs _

theorem frameCycles_eq (s : State) : frameCycles s = (frameLevels s).length + 1 := by
  rw [frameLevels, length_levels, ticksOf_frameTrain_eq_add, frameCycles, symbolTicks]
  omega

/-- The tick that starts in `s`, at a position inside its frame and with the levels sent so far on record. -/
def inFrame (s : State) (q : Seq) (sent : List Bool) : State :=
  { s with pins := {}, seq := q, tickDone := false, sensorWarn := false, wire := record sent }

/-- An idle edge in mode TX ends the cycle and steps the sequencer (44 R238). -/
theorem idleEdge_of_tx {s : State} (h : s.mode = .tx) :
    idleEdge s = seqEdge (endCycle { s with pins := {} }) := by
  rw [idleEdge, nopEdge_of_tx (s := { s with pins := {} }) h rfl, clearStrobes_recordTick]

/-- The TX_LOAD cycle sends no level (41 R152). -/
theorem idleEdge_of_tickStart {s : State} (h : AtTickStart s) :
    idleEdge s = inFrame s ⟨.high, 0, 7, highTicks s.params (curBit s.fb 0 7)⟩ [] := by
  obtain ⟨hm, hseq, hwire, -⟩ := h
  have hphase : (endCycle { s with pins := {} }).seq.phase = .load := congrArg Seq.phase hseq
  have hrecord : (recordTick { s with pins := {} }).wire = [] := by
    rw [recordTick_eq, if_neg (by simp [hseq])]
    exact hwire
  rw [idleEdge_of_tx hm, seqEdge_of_load hphase, endCycle, hrecord]
  rfl

/-- The line is driven at every position that counts down. -/
theorem CountsDown.phase {p : Params} {q : Seq} (h : CountsDown p q) :
    q.phase = .high ∨ q.phase = .low ∨ q.phase = .latch := by
  obtain ⟨hp | hp | ⟨hp, -⟩, -⟩ := h <;> simp [hp]

/-- Inside the frame every cycle has a level. -/
theorem cycleLevel_inFrame {s : State} {q : Seq} (hm : s.mode = .tx) (hq : CountsDown s.params q) (sent : List Bool) :
    cycleLevel (inFrame s q sent) = [dout (inFrame s q sent)] := if_pos ⟨hm, hq.phase⟩

/-- An edge inside the frame puts the level of the cycle that ends on record before the sequencer steps. -/
theorem idleEdge_inFrame {s : State} {q : Seq} (hm : s.mode = .tx) (hq : CountsDown s.params q) (sent : List Bool) :
    idleEdge (inFrame s q sent) = seqEdge (inFrame s q (sent ++ [dout (inFrame s q sent)])) := by
  have hphase : q.phase ≠ .load ∧ q.phase ≠ .idle := by
    rcases hq.phase with hp | hp | hp <;> simp [hp]
  have hrecord : (recordTick (inFrame s q sent)).wire = record (sent ++ [dout (inFrame s q sent)]) := by
    rw [recordTick_eq, if_pos ⟨hm, hphase⟩, record_append_singleton]
    rfl
  calc idleEdge (inFrame s q sent)
    _ = seqEdge (endCycle (inFrame s q sent)) := idleEdge_of_tx (s := inFrame s q sent) hm
    _ = seqEdge (inFrame s q (sent ++ [dout (inFrame s q sent)])) := by
      rw [endCycle, hrecord]
      rfl

/-- An edge inside the frame sends off the first level that is owed, and moves on or completes the tick. -/
theorem idleEdge_inFrame_cases {s : State} {q : Seq} (hwf : s.params.Wf) (hm : s.mode = .tx)
    (hq : CountsDown s.params q) (sent : List Bool) :
    (∃ q', idleEdge (inFrame s q sent) = inFrame s q' (sent ++ [dout (inFrame s q sent)]) ∧ CountsDown s.params q' ∧
      levels (owed s.params s.fb q) = dout (inFrame s q sent) :: levels (owed s.params s.fb q')) ∨
    (q = ⟨.latch, s.params.lastByte, 0, 1⟩ ∧
      idleEdge (inFrame s q sent) = completeTick (inFrame s q (sent ++ [dout (inFrame s q sent)])) ∧
      levels (owed s.params s.fb q) = [dout (inFrame s q sent)]) := by
  rw [idleEdge_inFrame hm hq]
  rcases seqEdge_of_countsDown (s := inFrame s q (sent ++ [dout (inFrame s q sent)])) hwf hq with
    ⟨q', hstep, hq', hlevel⟩ | ⟨hlast, hstep, hlevel⟩
  · exact .inl ⟨q', hstep, hq', hlevel⟩
  · exact .inr ⟨hlast, hstep, hlevel⟩

section
variable {s : State} (hwf : s.params.Wf) (hs : AtTickStart s)
include hwf hs

/-- The state in cycle `k + 2` of a tick that no fault strikes: `k` levels are on record and the others owed. -/
theorem iterate_idleEdge_succ (k : Nat) (hk : k < (frameLevels s).length) :
    ∃ q, idleEdge^[k + 1] s = inFrame s q ((frameLevels s).take k) ∧ CountsDown s.params q ∧
      levels (owed s.params s.fb q) = (frameLevels s).drop k := by
  induction k with
  | zero =>
    exact ⟨_, idleEdge_of_tickStart hs, countsDown_first_bit hwf, congrArg levels (owed_first_bit hwf)⟩
  | succ k ih =>
    have hk' : k < (frameLevels s).length := Nat.lt_of_succ_lt hk
    obtain ⟨q, hstate, hq, howed⟩ := ih hk'
    rw [List.drop_eq_getElem_cons hk'] at howed
    rw [Function.iterate_succ_apply', hstate]
    rcases idleEdge_inFrame_cases hwf hs.1 hq ((frameLevels s).take k) with
      ⟨q', hstep, hq', hlevel⟩ | ⟨-, -, hlevel⟩
    · obtain ⟨hdout, hrest⟩ := List.cons.inj (hlevel.symm.trans howed)
      exact ⟨q', by rw [hstep, hdout, List.take_append_getElem], hq', hrest⟩
    · have hnil := (List.cons.inj (hlevel.symm.trans howed)).2
      exact absurd (List.drop_eq_nil_iff.1 hnil.symm) (Nat.not_le.2 hk)

/-- The cycle before the completion edge is the last one of the latch, and that edge completes the tick with the whole
frame on record (41 R155). -/
theorem iterate_idleEdge_frameLevels :
    idleEdge^[(frameLevels s).length] s =
        inFrame s ⟨.latch, s.params.lastByte, 0, 1⟩ (frameLevels s).dropLast ∧
      idleEdge^[(frameLevels s).length + 1] s =
        completeTick (inFrame s ⟨.latch, s.params.lastByte, 0, 1⟩ (frameLevels s)) := by
  have hlen : 0 < (frameLevels s).length := by
    rw [frameLevels, ← owed_first_bit hwf]
    exact List.length_pos_of_ne_nil (levels_owed_ne_nil (countsDown_first_bit hwf))
  obtain ⟨n, hn⟩ := Nat.exists_eq_add_of_le' hlen
  have hlast : n < (frameLevels s).length := by omega
  obtain ⟨q, hstate, hq, howed⟩ := iterate_idleEdge_succ hwf hs n hlast
  rw [List.drop_eq_getElem_cons hlast, ← hn, List.drop_length] at howed
  have hdrop : (frameLevels s).dropLast = (frameLevels s).take n := by rw [List.dropLast_eq_take, hn]; rfl
  rcases idleEdge_inFrame_cases hwf hs.1 hq ((frameLevels s).take n) with
    ⟨q', -, hq', hlevel⟩ | ⟨rfl, hstep, hlevel⟩
  · have hnil := (List.cons.inj (hlevel.symm.trans howed)).2
    exact absurd hnil (levels_owed_ne_nil hq')
  · have hdout := (List.cons.inj (hlevel.symm.trans howed)).1
    rw [Function.iterate_succ_apply', hn, hstate, hstep, hdrop, hdout, List.take_append_getElem, ← hn, List.take_length]
    exact ⟨rfl, rfl⟩

/-- What a run of `k` idle edges inside the tick leaves: mode TX, the data of the tick as it was, `k - 1` levels on record
and the next one on the line (41 R156). -/
theorem run_inside_tick {k : Nat} (hk : k < frameCycles s) :
    ∃ t : State, Sys2Proof.core.run k s = .next t ∧ t.mode = .tx ∧ t.fb = s.fb ∧ t.prevSample = s.prevSample ∧
      levels (wireTrace t) ++ cycleLevel t = (frameLevels s).take k ∧
      (1 ≤ k → (frameLevels s)[k - 1]? = some (dout t)) := by
  obtain ⟨hm, hseq, hwire, hscript⟩ := id hs
  rw [frameCycles_eq] at hk
  refine ⟨_, run_of_script_nil hscript k, ?_⟩
  cases k with
  | zero =>
    refine ⟨hm, rfl, rfl, ?_, nofun⟩
    simp [wireTrace, cycleLevel, hseq, hwire]
  | succ k =>
    have hk' : k < (frameLevels s).length := Nat.lt_of_succ_lt_succ hk
    obtain ⟨q, hstate, hq, howed⟩ := iterate_idleEdge_succ hwf hs k hk'
    have hdout : (frameLevels s)[k] = dout (inFrame s q ((frameLevels s).take k)) := by
      rw [List.drop_eq_getElem_cons hk', levels_owed hq] at howed
      exact (List.cons.inj howed).1.symm
    rw [hstate]
    refine ⟨hm, rfl, rfl, ?_, fun _ => ?_⟩
    · rw [cycleLevel_inFrame hm hq, ← hdout, ← List.take_append_getElem hk']
      exact congrArg (· ++ _) (levels_record _)
    · rw [Nat.add_sub_cancel, List.getElem?_eq_getElem hk', hdout]

end

/-- Without its last level the frame is its symbols and a latch one tick shorter (41 R148). -/
theorem dropLast_frameLevels {s : State} (hwf : s.params.Wf) :
    (frameLevels s).dropLast =
      levels (pulsesOfBytes s.params (snapshotOf s.params s.fb) ++ [⟨false, s.params.tLatch - 1⟩]) := by
  have hrecord := levels_emitAll []
    (pulsesOfBytes s.params (snapshotOf s.params s.fb) ++ [⟨false, s.params.tLatch - 1⟩])
  rw [frameLevels, ← levels_wireBeforeLastLevel hwf, List.dropLast_concat]
  exact hrecord

/-- The levels before the last one leave the record that TRANSMIT in one step leaves (assumption log 7). -/
theorem record_dropLast_frameLevels {s : State} (hwf : s.params.Wf) :
    record (frameLevels s).dropLast = wireBeforeLastLevel s.params (snapshotOf s.params s.fb) := by
  have hlatch : 1 ≤ s.params.tLatch - 1 := by
    obtain ⟨-, -, ⟨hl, -⟩, -⟩ := hwf
    omega
  rw [dropLast_frameLevels hwf, record_levels (lasting_pulsesOfBytes_append hwf _ hlatch)]
  rfl

/-- The last cycle of the latch is where TRANSMIT in one step leads (assumption log 7). -/
theorem inFrame_last_cycle {s : State} (hwf : s.params.Wf) :
    inFrame s ⟨.latch, s.params.lastByte, 0, 1⟩ (frameLevels s).dropLast =
      lastLatchCycle (wireBeforeLastLevel s.params (snapshotOf s.params s.fb)) { s with pins := {} } := by
  rw [inFrame, record_dropLast_frameLevels hwf]
  rfl

/-- All its levels leave the record of the frame (41 R147). -/
theorem record_frameLevels {s : State} (hwf : s.params.Wf) :
    record (frameLevels s) = emitAll [] (frameTrain s.params (snapshotOf s.params s.fb)) :=
  record_levels (lasting_pulsesOfBytes_append hwf _ (durationOk_tLatch hwf).1)

/-- Settles O21: each edge inside the tick sends off the first of the levels still owed, and the last of them stands on
the line when the tick completes. -/
theorem cyclesOfATickAreTheWireTrace : Obligations.CyclesOfATickAreTheWireTrace := by
  intro s hwf hs
  obtain ⟨hlast, hdone⟩ := iterate_idleEdge_frameLevels hwf hs
  obtain ⟨hm, hseq, -, hscript⟩ := id hs
  have hload : s.seq.phase = .load := congrArg Seq.phase hseq
  refine ⟨dout_of_phase_ne_high (by simp [hload]), fun k hk => ?_, ?_, ?_⟩
  · obtain ⟨t, hrun, hmode, hfb, -, -, hdout⟩ := run_inside_tick hwf hs hk
    exact ⟨t, hrun, hmode, hfb, levels_wireTraceOf s ▸ hdout⟩
  · rw [frameCycles_eq]
    refine ⟨_, run_of_script_nil hscript _, ?_, ?_⟩
    · rw [hdone, wireTrace, completeTick_wire]
      exact (congrArg List.reverse (record_frameLevels hwf)).trans (reverse_emitAll_nil _)
    · rw [hdone]
      rfl
  · rw [frameCycles_eq, Nat.add_sub_cancel, run_of_script_nil hscript, hlast, inFrame_last_cycle hwf]
    exact (exec_transmit_of_no_fault (s := { s with pins := {} }) hm hload rfl).symm

/-- Settles O22: the edge at which the fault is seen records the cycle that ends, and then halts. -/
theorem cutFrameIsAPrefixOfTheTrace : Obligations.CutFrameIsAPrefixOfTheTrace := by
  intro s k hwf hs hk
  obtain ⟨t, hrun, hm, hfb, hprev, hlevels, -⟩ := run_inside_tick hwf hs hk
  have hfault := nopEdge_of_tx_fault_eq (s := { t with pins := { t.pins with txFault := true } }) hm rfl
  refine ⟨t, _, hrun, congrArg Host.Outcome.next hfault, rfl, rfl, hprev, hfb, ?_⟩
  rw [levels_wireTraceOf, ← hlevels]
  exact levels_recordTick { t with pins := { t.pins with txFault := true } }

end Sys2Proof.Machine

/-! ### The Frame Buffer operations (42 R171 to R176) -/

namespace Sys2Proof.Machine

section
variable {s : State}

theorem exec_setPixel_of_wait (index : Nat) (r g b : Byte) (h : s.mode = .wait) :
    exec (.setPixel index r g b) s = .next { s with fb := fbWrite s.params s.fb index ⟨r, g, b⟩ } :=
  congrArg _ (betweenTicks_of_wait h)

theorem exec_setPixel_of_not_wait (index : Nat) (r g b : Byte) (h : s.mode ≠ .wait) :
    exec (.setPixel index r g b) s = .next s := next_betweenTicks_of_not_wait h

theorem exec_clear_of_wait (h : s.mode = .wait) : exec .clear s = .next { s with fb := fbClear s.params s.fb } :=
  congrArg _ (betweenTicks_of_wait h)

theorem exec_fill_of_wait (r g b : Byte) (h : s.mode = .wait) :
    exec (.fill r g b) s = .next { s with fb := fbFill s.params s.fb ⟨r, g, b⟩ } :=
  congrArg _ (betweenTicks_of_wait h)

end

/-- CLEAR is FILL with all channels off, whatever the mode (42 R173). -/
theorem exec_fill_off (s : State) : exec (.fill 0 0 0) s = exec .clear s := rfl

theorem exec_snapshot (s : State) :
    exec .snapshot s = .next { s with result := .bytes (snapshotOf s.params s.fb) } := rfl

/-- The three bytes of a pixel in the snapshot: green, red, blue (42 R176). -/
theorem snapshotOf_of_pixel {p : Params} {fb : FrameBuffer} {j : Nat} {px : Pixel} (hj : j < p.ledCount)
    (hpx : fb[j]? = some px) :
    (snapshotOf p fb)[3 * j]? = some px.g ∧ (snapshotOf p fb)[3 * j + 1]? = some px.r ∧
      (snapshotOf p fb)[3 * j + 2]? = some px.b := by
  have hlast : 3 * j + 2 < p.frameBytes := by
    unfold Params.frameBytes
    omega
  obtain ⟨hg, hr, hb⟩ := snapByte_of_pixel hpx
  rw [snapshotOf_getElem? fb (by omega), snapshotOf_getElem? fb (by omega), snapshotOf_getElem? fb hlast, hg, hr, hb]
  exact ⟨rfl, rfl, rfl⟩

/-- Settles O37: in mode WAIT SET_PIXEL is one bounds-checked pixel write, and that is known at every index. -/
theorem setPixelWritesThatPixelOnly : Obligations.SetPixelWritesThatPixelOnly := by
  intro s index r g b hfb hm
  exact ⟨_, exec_setPixel_of_wait index r g b hm, rfl, length_fbWrite _ _ _ _,
    fun _ hj => fbWrite_getElem? index ⟨r, g, b⟩ hfb hj⟩

/-- Settles O38: in mode WAIT the write is out of range and drops itself, and elsewhere SET_PIXEL is dropped whole. -/
theorem setPixelOutOfRangeChangesNothing : Obligations.SetPixelOutOfRangeChangesNothing := by
  intro s index r g b hi
  by_cases hm : s.mode = .wait
  · rw [exec_setPixel_of_wait index r g b hm, fbWrite_of_le hi]
  · exact exec_setPixel_of_not_wait index r g b hm

/-- Settles O39: in mode WAIT both fill the whole buffer, CLEAR with the pixel (0,0,0). -/
theorem clearAndFillPaintEveryPixel : Obligations.ClearAndFillPaintEveryPixel := by
  intro s r g b hfb
  refine ⟨fun hm => ⟨?_, ?_⟩, exec_fill_off s⟩
  · rw [exec_clear_of_wait hm, fbClear_eq_replicate hfb]
    rfl
  · rw [exec_fill_of_wait r g b hm, fbFill_eq_replicate _ hfb]

/-- Settles O40: the snapshot has three bytes for each of the LED_COUNT pixels the buffer holds. -/
theorem snapshotIsGreenRedBlueInIndexOrder : Obligations.SnapshotIsGreenRedBlueInIndexOrder := by
  intro s hfb
  have hlen : (snapshotOf s.params s.fb).length = 3 * s.params.ledCount := length_snapshotOf s.params s.fb
  refine ⟨_, exec_snapshot s, hlen, fun h14 => by rw [hlen, h14], fun j hj => ?_⟩
  have hpx : s.fb[j]? = some (s.fb[j]'(hfb ▸ hj)) := List.getElem?_eq_getElem _
  exact ⟨_, hpx, snapshotOf_of_pixel hj hpx⟩

end Sys2Proof.Machine

/-! ### The rows of the transition table (43 R205) -/

namespace Sys2Proof.Machine

/-- The trigger, written out, and what it must meet to open or restart a window (43 R194 to R197). -/
theorem opensWindow_iff (s : State) (cur : Int) :
    opensWindow s cur = true ↔
      s.params.threshold < (cur - if s.baselineValid then s.prevSample else cur).natAbs ∧
        (s.blink = .idle ∨ s.params.retrigger = .restart) := by
  simp only [opensWindow, trig, Bool.and_eq_true, Bool.or_eq_true, decide_eq_true_iff]
  rfl

/-- A sample that lies within THRESHOLD of the reference opens no window (43 R195). -/
theorem opensWindow_of_le {s : State} {cur : Int}
    (h : (cur - if s.baselineValid then s.prevSample else cur).natAbs ≤ s.params.threshold) :
    opensWindow s cur = false :=
  Bool.eq_false_iff.2 fun ho => Nat.not_lt.2 h ((opensWindow_iff s cur).1 ho).1

/-- The window test on the elapsed time as the integer it stands for (43 R198, R199). -/
theorem elapsed_lt_iff (p : Params) (now start d : Nat) :
    elapsed p now start < d ↔ ((now : Int) - (start : Int)) % ((2 ^ p.timeW : Nat) : Int) < (d : Int) := by
  have hpos : ((2 ^ p.timeW : Nat) : Int) ≠ 0 := Int.natCast_ne_zero.2 (Nat.two_pow_pos _).ne'
  rw [elapsed, ← Int.ofNat_lt, Int.toNat_of_nonneg (Int.emod_nonneg _ hpos)]

section
variable {s : State} {cur : Int} {now : Nat}

/-- A trigger that opens or restarts a window leaves it open from now on (43 R196, R197). -/
theorem ctrlUpdate_of_trigger (ho : opensWindow s cur = true) (hd : 1 ≤ s.params.blinkDuration) :
    ctrlUpdate cur now s =
      { s with blink := .blinking, blinkStart := now, fb := fbFill s.params s.fb (phaseColour s.params now) } := by
  have hin : elapsed s.params now now < s.params.blinkDuration := by rwa [elapsed_self]
  rw [ctrlUpdate_of_opens now ho, windowUpdate, if_pos hin]
  rfl

/-- Without a trigger that counts, a window that is not over stays open (43 R199). -/
theorem ctrlUpdate_of_inside (ho : opensWindow s cur = false) (hb : s.blink = .blinking)
    (hin : elapsed s.params now s.blinkStart < s.params.blinkDuration) :
    ctrlUpdate cur now s = { s with fb := fbFill s.params s.fb (phaseColour s.params now) } := by
  rw [ctrlUpdate_eq, ho, if_neg Bool.false_ne_true, windowUpdate, hb]
  exact if_pos hin

/-- Without a trigger that counts, a window that is over is closed (43 R200). -/
theorem ctrlUpdate_of_over (ho : opensWindow s cur = false) (hb : s.blink = .blinking)
    (hover : ¬ elapsed s.params now s.blinkStart < s.params.blinkDuration) :
    ctrlUpdate cur now s = { s with blink := .idle, fb := fbFill s.params s.fb s.params.colorOff } := by
  rw [ctrlUpdate_eq, ho, if_neg Bool.false_ne_true, windowUpdate, hb]
  exact if_neg hover

end

/-- Settles O42: the trigger and RETRIGGER decide whether a window opens, and if none does the elapsed time decides
what becomes of the one under way. -/
theorem ctrlUpdateFollowsTheTransitionTable : Obligations.CtrlUpdateFollowsTheTransitionTable := by
  intro s cur now hfb hm hd
  refine ⟨_, exec_ctrlUpdate_of_wait cur now hm, ctrlUpdate_frame cur now s, ?_⟩
  rintro ref trigger inWindow painted rfl htrigger hwindow rfl
  have hopens := opensWindow_iff s cur
  rw [← htrigger] at hopens
  rw [← elapsed_lt_iff] at hwindow
  have hpaint (px : Pixel) : fbFill s.params s.fb px = List.replicate s.params.ledCount px := fbFill_eq_replicate px hfb
  have hquiet (h : ¬ trigger) : opensWindow s cur = false := Bool.eq_false_iff.2 fun ho => h (hopens.1 ho).1
  have hignored (hb : s.blink = .blinking) (hr : s.params.retrigger = .ignore) : opensWindow s cur = false :=
    Bool.eq_false_iff.2 fun ho => by simpa [hb, hr] using (hopens.1 ho).2
  have hopened (ho : opensWindow s cur = true) := ctrlUpdate_of_trigger (now := now) ho hd
  have hinside (ho : opensWindow s cur = false) (hb : s.blink = .blinking) (hin : inWindow) :=
    ctrlUpdate_of_inside ho hb (hwindow.1 hin)
  have hover (ho : opensWindow s cur = false) (hb : s.blink = .blinking) (hin : ¬ inWindow) :=
    ctrlUpdate_of_over ho hb fun h => hin (hwindow.2 h)
  refine ⟨fun hb ht => ?_, fun hb ht => ?_, fun hb ht hin => ?_, fun hb ht hin => ?_, fun hb ht hr => ?_,
    fun hb ht hr hin => ?_, fun hb ht hr hin => ?_⟩
  · rw [ctrlUpdate_of_idle now hb (hquiet ht)]
    exact ⟨hb, rfl, hpaint _⟩
  · rw [hopened (hopens.2 ⟨ht, .inl hb⟩)]
    exact ⟨rfl, rfl, hpaint _⟩
  · rw [hinside (hquiet ht) hb hin]
    exact ⟨hb, rfl, hpaint _⟩
  · rw [hover (hquiet ht) hb hin]
    exact ⟨rfl, rfl, hpaint _⟩
  · rw [hopened (hopens.2 ⟨ht, .inr hr⟩)]
    exact ⟨rfl, rfl, hpaint _⟩
  · rw [hinside (hignored hb hr) hb hin]
    exact ⟨hb, rfl, hpaint _⟩
  · rw [hover (hignored hb hr) hb hin]
    exact ⟨rfl, rfl, hpaint _⟩

/-- Settles O43: without a baseline the sample is its own reference, so the delta is 0. -/
theorem baselineTickNeverTriggers : Obligations.BaselineTickNeverTriggers := by
  intro s cur now hfb hm hv hb
  have hquiet : opensWindow s cur = false := opensWindow_of_le (by simp [hv])
  rw [exec_ctrlUpdate_of_wait cur now hm, ctrlUpdate_of_idle now hb hquiet, fbFill_eq_replicate _ hfb]

/-- Settles O44: the delta is the distance from the previous sample, so its direction does not count. -/
theorem triggerNeedsMoreThanTheThreshold : Obligations.TriggerNeedsMoreThanTheThreshold := by
  intro s cur now hm hv hb hd
  refine ⟨fun hcur => ⟨_, exec_ctrlUpdate_of_wait cur now hm, ?_⟩,
    fun hcur => ⟨_, exec_ctrlUpdate_of_wait cur now hm, ?_⟩⟩
  · have hquiet : opensWindow s cur = false := opensWindow_of_le (by rw [if_pos hv]; omega)
    rw [ctrlUpdate_of_idle now hb hquiet]
    exact ⟨hb, rfl⟩
  · have htrigger : opensWindow s cur = true :=
      (opensWindow_iff s cur).2 ⟨by rw [if_pos hv]; omega, .inl hb⟩
    rw [ctrlUpdate_of_trigger htrigger hd]
    exact ⟨rfl, rfl⟩

/-- Settles O45: the elapsed time is `d` whether or not the time has wrapped, and the sample does not trigger. -/
theorem windowIsMeasuredAcrossAWrap : Obligations.WindowIsMeasuredAcrossAWrap := by
  intro s d _ hfb hm _ hd hb hv
  have hquiet : opensWindow s s.prevSample = false := opensWindow_of_le (by simp [hv])
  have helapsed := elapsed_add_mod (p := s.params) s.blinkStart hd
  refine ⟨_, exec_ctrlUpdate_of_wait _ _ hm, fun hin => ?_, fun hover => ?_⟩
  · rw [ctrlUpdate_of_inside hquiet hb (by rwa [helapsed])]
    exact ⟨hb, rfl⟩
  · rw [ctrlUpdate_of_over hquiet hb (by rwa [helapsed, Nat.not_lt])]
    exact ⟨rfl, fbFill_eq_replicate _ hfb⟩

/-- Settles O49: `betweenTicks` lets TICK_END act in mode WAIT. -/
theorem tickEndTakesTheSample : Obligations.TickEndTakesTheSample := fun _ hm => congrArg _ (betweenTicks_of_wait hm)

end Sys2Proof.Machine

/-! ### A whole tick, edge by edge (43 R203, R204) -/

namespace Sys2Proof.Machine

/-- The tick that starts in `t`, completed: its frame on record and its sample the reference (41 R155, 43 R204). -/
def frameSent (t : State) : State :=
  { t with
    pins := {}, mode := .wait, seq := Seq.rest, prevSample := t.curSample, baselineValid := true, tickDone := true,
    sensorWarn := false, wire := emitAll [] (frameTrain t.params (snapshotOf t.params t.fb)) }

theorem wireTrace_frameSent (t : State) :
    wireTrace (frameSent t) = wireTraceOf t.params (snapshotOf t.params t.fb) := reverse_emitAll_nil _

section
variable {t : State} (hwf : t.params.Wf) (ht : AtTickStart t)
include hwf ht

/-- Until the completion edge no idle edge leaves mode TX (41 R156). -/
theorem iterate_idleEdge_mode {k : Nat} (hk : k < frameCycles t) : (idleEdge^[k] t).mode = .tx := by
  obtain ⟨u, hrun, hm, -⟩ := run_inside_tick hwf ht hk
  cases hrun.symm.trans (run_of_script_nil ht.2.2.2 k)
  exact hm

/-- The cycles of a tick send its frame. -/
theorem iterate_idleEdge_frameCycles : idleEdge^[frameCycles t] t = frameSent t := by
  rw [frameCycles_eq, (iterate_idleEdge_frameLevels hwf ht).2, inFrame, record_frameLevels hwf]
  rfl

end

/-- At the accept edge of a host that presents nothing more a tick starts (41 R150). -/
theorem atTickStart_acceptTick (sample : Int) (now : Nat) {s : State} (h : s.script = []) :
    AtTickStart (acceptTick sample now s) := ⟨rfl, rfl, rfl, (ctrlUpdate_script _ _ _).trans h⟩

/-- Settles O23: the accept edge starts a tick, and the cycles of a tick send the frame of the buffer it painted. -/
theorem acceptedTickSendsItsOwnFrame : Obligations.AcceptedTickSendsItsOwnFrame := by
  intro s sample now hwf hm hscript
  have hparams := acceptTick_params sample now s
  have hstart := atTickStart_acceptTick sample now hscript
  refine ⟨_, _, exec_tick_of_wait sample now hm, run_of_script_nil hstart.2.2.2 _, ?_⟩
  rw [iterate_idleEdge_frameCycles (hparams ▸ hwf) hstart, wireTrace_frameSent, hparams]
  exact ⟨rfl, rfl, rfl, rfl, rfl, rfl, rfl, rfl⟩

/-! ### An idle edge does not look at what the host will present (assumption log 1) -/

theorem endCycle_with_script (s : State) (l : List Stimulus) :
    endCycle { s with script := l } = { endCycle s with script := l } := by
  have hwire : (recordTick { s with script := l }).wire = (recordTick s).wire := by
    rw [recordTick_eq, recordTick_eq]
    split <;> rfl
  rw [endCycle, endCycle, hwire]

theorem seqEdge_with_script (s : State) (l : List Stimulus) :
    seqEdge { s with script := l } = { seqEdge s with script := l } := by
  cases hp : s.seq.phase with
  | idle => rw [seqEdge_of_idle hp, seqEdge_of_idle (s := { s with script := l }) hp]
  | load => rw [seqEdge_of_load hp, seqEdge_of_load (s := { s with script := l }) hp]
  | high => rw [seqEdge_of_high hp, seqEdge_of_high (s := { s with script := l }) hp]
  | low => rw [seqEdge_of_low hp, seqEdge_of_low (s := { s with script := l }) hp]
  | latch =>
    by_cases hc : 1 < s.seq.cnt
    · rw [seqEdge_of_latch_count hp hc, seqEdge_of_latch_count (s := { s with script := l }) hp hc]
    · have hc' : s.seq.cnt ≤ 1 := Nat.le_of_not_lt hc
      rw [seqEdge_of_latch_done hp hc', seqEdge_of_latch_done (s := { s with script := l }) hp hc']
      rfl

theorem idleEdge_with_script (s : State) (l : List Stimulus) :
    idleEdge { s with script := l } = { idleEdge s with script := l } := by
  rcases mode_cases s.mode with hm | hm | hm | hm
  · rw [idleEdge, idleEdge, nopEdge_of_init (s := { s with script := l, pins := {} }) hm,
      nopEdge_of_init (s := { s with pins := {} }) hm]
    rfl
  · rw [idleEdge, idleEdge, nopEdge_of_wait (s := { s with script := l, pins := {} }) hm,
      nopEdge_of_wait (s := { s with pins := {} }) hm]
    rfl
  · rw [idleEdge_of_tx (s := { s with script := l }) hm, idleEdge_of_tx hm, ← seqEdge_with_script,
      ← endCycle_with_script]
  · rw [idleEdge, idleEdge, nopEdge_of_halted (s := { s with script := l, pins := {} }) hm,
      nopEdge_of_halted (s := { s with pins := {} }) hm]
    rfl

theorem iterate_idleEdge_with_script (k : Nat) (s : State) (l : List Stimulus) :
    idleEdge^[k] { s with script := l } = { idleEdge^[k] s with script := l } := by
  induction k generalizing s with
  | zero => rfl
  | succ k ih => rw [Function.iterate_succ_apply, idleEdge_with_script, ih, Function.iterate_succ_apply]

/-! ### A tick of a host program (30 R105) -/

/-- While mode TX lasts, the cycles of a tick that no fault strikes are idle edges. -/
theorem runTick_none_eq_iterate {k : Nat} {s : State} (cycle : Nat) (h : ∀ j < k, (idleEdge^[j] s).mode = .tx) :
    runTick none k cycle s = idleEdge^[k] s := by
  induction k generalizing s cycle with
  | zero => rfl
  | succ k ih =>
    have hstep : runTick none (k + 1) cycle s = runTick none k (cycle + 1) (idleEdge s) :=
      if_pos (h 0 (Nat.succ_pos k))
    rw [hstep, Function.iterate_succ_apply]
    exact ih _ fun j hj => h (j + 1) (Nat.succ_lt_succ hj)

/-- A tick line in mode WAIT: the accept edge, and then its whole frame, whatever the host's script holds. -/
theorem runLine_tick_of_wait {s : State} (sample : Int) (now : Nat) (hwf : s.params.Wf) (hm : s.mode = .wait) :
    runLine (.tick sample now none) s = frameSent (acceptTick sample now { s with pins := {} }) := by
  obtain ⟨t, ht⟩ : ∃ t, t = acceptTick sample now { s with pins := {} } := ⟨_, rfl⟩
  have haccept : tickEdge sample now { s with pins := {} } = t := (if_pos hm).trans ht.symm
  have hwf' : t.params.Wf := by rwa [ht, acceptTick_params]
  have hstart : AtTickStart { t with script := [] } := by
    rw [ht]
    exact ⟨rfl, rfl, rfl, rfl⟩
  have hiterate (k : Nat) := iterate_idleEdge_with_script k { t with script := [] } t.script
  calc runLine (.tick sample now none) s
    _ = runTick none (frameCycles t) 1 t := by rw [← haccept]; rfl
    _ = idleEdge^[frameCycles t] t := runTick_none_eq_iterate 1 fun j hj => by
      rw [hiterate j]
      exact iterate_idleEdge_mode (t := { t with script := [] }) hwf' hstart hj
    _ = frameSent t := by
      rw [hiterate (frameCycles t)]
      exact congrArg (fun u : State => { u with script := t.script })
        (iterate_idleEdge_frameCycles (t := { t with script := [] }) hwf' hstart)
    _ = frameSent (acceptTick sample now { s with pins := {} }) := by rw [ht]

/-! ### The window over whole ticks (43 R207) -/

/-- While the time has neither wrapped nor gone back, the elapsed time is the plain difference (43 R198). -/
theorem elapsed_of_le {p : Params} {now start : Nat} (hnow : p.TimeOk now) (h : start ≤ now) :
    elapsed p now start = now - start := by
  have hmod := elapsed_add_mod (p := p) start (Nat.lt_of_le_of_lt (Nat.sub_le now start) hnow)
  rwa [Nat.add_sub_cancel' h, Nat.mod_eq_of_lt hnow] at hmod

/-- The line of a host program that presents the sample and the time `q`. -/
def tickLine (q : Int × Nat) : Line := .tick q.1 q.2 none

/-- Two samples in succession that do not trigger (43 R195). -/
def Quiet (p : Params) (a b : Int) : Prop := (b - a).natAbs ≤ p.threshold

/-- Between two ticks, under the parameters `p` and with a reference sample taken. -/
structure Ready (p : Params) (s : State) : Prop where
  params : s.params = p
  fbOk : FbOk s
  mode : s.mode = .wait
  baseline : s.baselineValid = true

/-- Ready, and the window that opened at `start` is open. -/
structure WindowOpen (p : Params) (start : Nat) (s : State) : Prop extends Ready p s where
  blink : s.blink = .blinking
  blinkStart : s.blinkStart = start

/-- Ready, no window is open, and the latest tick has sent a frame with all pixels off. -/
structure OffFrameSent (p : Params) (s : State) : Prop extends Ready p s where
  blink : s.blink = .idle
  fb : s.fb = List.replicate p.ledCount p.colorOff
  wire : wireTrace s = wireTraceOf p (snapshotOf p s.fb)

/-- What the accept edge hands the controller: the pins of the line and cleared strobes (44 R236, 10 R28). -/
def atAccept (s : State) : State := clearStrobes { s with pins := {} }

section
variable {p : Params} {start : Nat} {s : State} {q : Int × Nat}

theorem ready_atAccept (h : Ready p s) : Ready p (atAccept s) := ⟨h.params, h.fbOk, h.mode, h.baseline⟩

theorem Ready.opensWindow_of_quiet (h : Ready p s) (hq : Quiet p s.prevSample q.1) : opensWindow s q.1 = false := by
  refine opensWindow_of_le ?_
  rw [if_pos h.baseline, h.params]
  exact hq

theorem Ready.runLine_tickLine (hwf : p.Wf) (h : Ready p s) :
    runLine (tickLine q) s = frameSent (acceptTick q.1 q.2 { s with pins := {} }) :=
  runLine_tick_of_wait q.1 q.2 (h.params ▸ hwf) h.mode

/-- A tick leaves the block ready for the next one, with its sample as the reference and its frame sent. -/
theorem Ready.tick (hwf : p.Wf) (h : Ready p s) :
    Ready p (runLine (tickLine q) s) ∧ (runLine (tickLine q) s).prevSample = q.1 ∧
      wireTrace (runLine (tickLine q) s) = wireTraceOf p (snapshotOf p (runLine (tickLine q) s).fb) := by
  have hparams : (acceptTick q.1 q.2 { s with pins := {} }).params = p := (acceptTick_params _ _ _).trans h.params
  have hfb : (acceptTick q.1 q.2 { s with pins := {} }).fb.length =
      (acceptTick q.1 q.2 { s with pins := {} }).params.ledCount :=
    (length_ctrlUpdate_fb q.1 q.2 (atAccept s)).trans (h.fbOk.trans (by rw [hparams, h.params]))
  rw [h.runLine_tickLine hwf, wireTrace_frameSent, hparams]
  exact ⟨⟨hparams, hfb, rfl, rfl⟩, rfl, rfl⟩

/-- A tick inside the window that does not trigger keeps the window open (43 R199). -/
theorem WindowOpen.tick (hwf : p.Wf) (h : WindowOpen p start s) (hq : Quiet p s.prevSample q.1)
    (hin : elapsed p q.2 start < p.blinkDuration) : WindowOpen p start (runLine (tickLine q) s) := by
  obtain ⟨hready, -, -⟩ := h.toReady.tick (q := q) hwf
  have hin' : elapsed s.params q.2 s.blinkStart < s.params.blinkDuration := by rwa [h.params, h.blinkStart]
  have hctrl := ctrlUpdate_of_inside (s := atAccept s) ((ready_atAccept h.toReady).opensWindow_of_quiet hq) h.blink hin'
  refine ⟨hready, ?_, ?_⟩ <;> rw [h.runLine_tickLine hwf]
  · exact (congrArg State.blink hctrl).trans h.blink
  · exact (congrArg State.blinkStart hctrl).trans h.blinkStart

/-- A tick that does not trigger, with no window open or the window over, sends a frame with all pixels off (43 R200,
R201). -/
theorem Ready.tick_off (hwf : p.Wf) (h : Ready p s) (hq : Quiet p s.prevSample q.1)
    (hover : s.blink = .blinking → p.blinkDuration ≤ elapsed p q.2 s.blinkStart) :
    OffFrameSent p (runLine (tickLine q) s) := by
  obtain ⟨hready, -, hwire⟩ := h.tick (q := q) hwf
  have hquiet : opensWindow (atAccept s) q.1 = false := (ready_atAccept h).opensWindow_of_quiet hq
  have hctrl : (ctrlUpdate q.1 q.2 (atAccept s)).blink = .idle ∧
      (ctrlUpdate q.1 q.2 (atAccept s)).fb = fbFill s.params s.fb s.params.colorOff := by
    cases hb : s.blink with
    | idle =>
      rw [ctrlUpdate_of_idle (s := atAccept s) q.2 hb hquiet]
      exact ⟨hb, rfl⟩
    | blinking =>
      have hover' : ¬ elapsed s.params q.2 s.blinkStart < s.params.blinkDuration := by
        rw [h.params]
        exact Nat.not_lt.2 (hover hb)
      rw [ctrlUpdate_of_over (s := atAccept s) hquiet hb hover']
      exact ⟨rfl, rfl⟩
  refine ⟨hready, ?_, ?_, hwire⟩ <;> rw [h.runLine_tickLine hwf]
  · exact hctrl.1
  · refine hctrl.2.trans ?_
    rw [fbFill_eq_replicate _ h.fbOk, h.params]

/-- Ticks inside the window, none of which triggers, keep the window open. -/
theorem WindowOpen.ticks (hwf : p.Wf) {before rest : List (Int × Nat)} (h : WindowOpen p start s)
    (hquiet : List.IsChain (Quiet p) (s.prevSample :: (before ++ rest).map Prod.fst))
    (hin : ∀ q ∈ before, elapsed p q.2 start < p.blinkDuration) :
    WindowOpen p start (runProgram (before.map tickLine) s) ∧
      List.IsChain (Quiet p) ((runProgram (before.map tickLine) s).prevSample :: rest.map Prod.fst) := by
  induction before generalizing s with
  | nil => exact ⟨h, hquiet⟩
  | cons q before ih =>
    obtain ⟨hq, hquiet'⟩ := List.isChain_cons_cons.1 hquiet
    obtain ⟨-, hprev, -⟩ := h.toReady.tick (q := q) hwf
    obtain ⟨hin0, hin'⟩ := List.forall_mem_cons.1 hin
    exact ih (h.tick hwf hq hin0) (hprev.symm ▸ hquiet') hin'

/-- Once the window is closed, ticks that do not trigger leave it closed, each with a frame of its own. -/
theorem OffFrameSent.ticks (hwf : p.Wf) {after : List (Int × Nat)} (h : OffFrameSent p s)
    (hquiet : List.IsChain (Quiet p) (s.prevSample :: after.map Prod.fst)) :
    OffFrameSent p (runProgram (after.map tickLine) s) := by
  induction after generalizing s with
  | nil => exact h
  | cons q after ih =>
    obtain ⟨hq, hquiet'⟩ := List.isChain_cons_cons.1 hquiet
    obtain ⟨-, hprev, -⟩ := h.toReady.tick (q := q) hwf
    exact ih (h.tick_off hwf hq fun hb => by simp [h.blink] at hb) (hprev.symm ▸ hquiet')

end

/-- Settles O48: the ticks before the window's end keep it open, the next one closes it, and without a trigger none
of the later ones opens another. -/
theorem windowClosesAtTheFirstTickAfterIt : Obligations.WindowClosesAtTheFirstTickAfterIt := by
  intro s before after x now hwf hfb hm hv hb hquiet hbefore hnow hend
  have hopen : WindowOpen s.params s.blinkStart s := ⟨⟨rfl, hfb, hm, hv⟩, hb, rfl⟩
  have hin : ∀ q ∈ before, elapsed s.params q.2 s.blinkStart < s.params.blinkDuration := fun q hq => by
    obtain ⟨htime, hle, hlt⟩ := hbefore q hq
    rw [elapsed_of_le htime hle]
    omega
  have hover : s.params.blinkDuration ≤ elapsed s.params now s.blinkStart := by
    rw [elapsed_of_le hnow (by omega)]
    omega
  obtain ⟨ht, hquiet'⟩ := hopen.ticks hwf hquiet hin
  obtain ⟨hx, hquiet''⟩ := List.isChain_cons_cons.1 hquiet'
  obtain ⟨-, hprev, -⟩ := ht.toReady.tick (q := (x, now)) hwf
  have hclosed := ht.toReady.tick_off (q := (x, now)) hwf hx fun _ => ht.blinkStart.symm ▸ hover
  have hu := hclosed.ticks hwf (hprev.symm ▸ hquiet'')
  have hrun : runProgram ((before ++ (x, now) :: after).map tickLine) s =
      runProgram (after.map tickLine) (runLine (tickLine (x, now)) (runProgram (before.map tickLine) s)) := by
    rw [runProgram, List.map_append, List.foldl_append]
    rfl
  rw [← hrun] at hu
  exact ⟨_, _, rfl, ht.mode, ht.blink, ht.blinkStart, rfl, hu.mode, hu.blink, hu.fb, hu.wire⟩

end Sys2Proof.Machine

/-! ### The ports and the script (44 R230, R231) -/

namespace Sys2Proof.Machine

/-- Settles O5: whatever decodes has operands that fit their ports, and TICK and CTRL_UPDATE are two cases of that. -/
theorem decodedOperandsFitTheirPorts : Obligations.DecodedOperandsFitTheirPorts := by
  rintro p x cur now (h | h)
  · exact operandsOk_of_decode h
  · exact operandsOk_of_decode h

/-- Settles O6: the next item is the one in front, none at all is the idle edge, and `withFetchWord` puts its item in
front. -/
theorem stepRunsTheDecodedInstruction : Obligations.StepRunsTheDecodedInstruction :=
  ⟨fun _ _ _ _ hs h => step_of_decode hs h, fun _ hs => step_of_script_nil hs,
    fun s nbits w _ h => step_of_decode (s := s.withFetchWord nbits w) rfl h⟩

/-! ### The edges of NOP, TICK and TICK_SFAULT (44 R236 to R239) -/

/-- Under way, the sequencer never stays where it is: it counts, or changes its phase (41 R150 to R155). -/
theorem seqEdge_seq_ne {s : State} (h : s.seq.phase ≠ .idle) : (seqEdge s).seq ≠ s.seq := by
  have moved (hchange : (seqEdge s).seq.phase ≠ s.seq.phase ∨ (seqEdge s).seq.cnt ≠ s.seq.cnt) :
      (seqEdge s).seq ≠ s.seq := fun he => by simp [he] at hchange
  apply moved
  cases hp : s.seq.phase
  case idle => exact absurd hp h
  case load => exact .inl (by simp [seqEdge_of_load hp])
  case high =>
    rw [seqEdge_of_high hp]
    by_cases hc : 1 < s.seq.cnt
    · exact .inr (by simp only [if_pos hc]; omega)
    · exact .inl (by simp [if_neg hc])
  case low =>
    by_cases hc : 1 < s.seq.cnt
    · exact .inr (by simp only [seqEdge_of_low_count hp hc]; omega)
    · rw [seqEdge_of_low_done hp (Nat.le_of_not_lt hc), afterLow]
      exact .inl (by split <;> simp)
  case latch =>
    by_cases hc : 1 < s.seq.cnt
    · exact .inr (by simp only [seqEdge_of_latch_count hp hc]; omega)
    · exact .inl (by simp [seqEdge_of_latch_done hp (Nat.le_of_not_lt hc), Seq.rest])

/-- `tick_done` is the completion of the tick: the one edge from mode TX to mode WAIT (10 R28). -/
theorem nopEdge_tickDone (s : State) :
    (nopEdge s).tickDone = decide (s.mode = .tx ∧ (nopEdge s).mode = .wait) := by
  rcases mode_cases s.mode with hm | hm | hm | hm
  · rw [nopEdge_of_init hm]
    split
    · rw [raiseFatal_of_not_halted (by simp [hm])]
      simp
    · simp [hm]
  · simp [nopEdge_of_wait hm, hm]
  · cases hf : s.pins.txFault
    · rw [nopEdge_of_tx hm hf, clearStrobes_recordTick]
      rcases seqEdge_cases (endCycle s) with h | ⟨-, -, h⟩
      · rw [h]
        simp [endCycle, hm]
      · simp [h, hm]
    · simp [nopEdge_of_tx_fault_eq hm hf, haltedWith]
  · simp [nopEdge_of_halted hm, hm]

/-- An edge without a command skips no tick (10 R28). -/
theorem nopEdge_sensorWarn (s : State) : (nopEdge s).sensorWarn = false := by
  rcases mode_cases s.mode with hm | hm | hm | hm
  · rw [nopEdge_of_init hm]
    split
    · rw [raiseFatal_of_not_halted (by simp [hm])]
    · rfl
  · rw [nopEdge_of_wait hm, clearStrobes_sensorWarn]
  · cases hf : s.pins.txFault
    · rw [nopEdge_of_tx hm hf, seqEdge_sensorWarn, clearStrobes_sensorWarn]
    · rw [nopEdge_of_tx_fault_eq hm hf]
      rfl
  · rw [nopEdge_of_halted hm, clearStrobes_sensorWarn]

/-- Mode INIT lasts one edge (70 R292). -/
theorem nopEdge_mode_of_init {s : State} (h : s.mode = .init) : (nopEdge s).mode ≠ .init := by
  rw [nopEdge_of_init h]
  split
  · simp
  · exact nofun

/-- Settles O8: NOP is the edge without a command, and what that does is known mode by mode. -/
theorem nopDoesNothingOfItsOwn : Obligations.NopDoesNothingOfItsOwn := by
  refine fun s => ⟨nopEdge s, rfl, nopEdge_tickDone s, nopEdge_sensorWarn s, ?_, nopEdge_mode_of_init, ?_, ?_⟩
  · rintro (hm | hm)
    · exact nopEdge_of_wait hm
    · exact nopEdge_of_halted hm
  · intro hm hf
    rw [nopEdge_of_tx_fault_eq hm hf]
    rfl
  · intro hm hf hp
    rw [nopEdge_of_tx hm hf, clearStrobes_recordTick]
    exact seqEdge_seq_ne (s := endCycle s) hp

/-- The controller does not look at the strobes (43 R202). -/
theorem ctrlUpdate_clearStrobes (cur : Int) (now : Nat) (s : State) :
    ctrlUpdate cur now (clearStrobes s) = clearStrobes (ctrlUpdate cur now s) := by
  rcases ctrlUpdate_cases cur now s with ⟨ho, h⟩ | ⟨ho, h⟩ <;>
    rcases ctrlUpdate_cases cur now (clearStrobes s) with ⟨ho', h'⟩ | ⟨ho', h'⟩
  · rw [h, h']
    rfl
  · exact absurd ho ho'
  · exact absurd ho' ho
  · rw [h, h']
    rfl

/-- Settles O10: the accept edge is CTRL_UPDATE, which writes the Blink State and the buffer alone, and beside it the
capture, the start of the Transmitter and the cleared strobes. -/
theorem tickAcceptedInWait : Obligations.TickAcceptedInWait := by
  intro s sample now hm
  refine ⟨_, exec_ctrlUpdate_of_wait sample now hm, ?_⟩
  rw [exec_tick_of_wait sample now hm, acceptTick, ctrlUpdate_clearStrobes, ctrlUpdate_frame]
  rfl

/-- Settles O11: the accept edge puts mode, sequencer and sample where the outputs look, and CTRL_UPDATE leaves the
baseline and the fault code. -/
theorem diagnosticsOfAnAcceptedTick : Obligations.DiagnosticsOfAnAcceptedTick := by
  intro s sample now hm
  refine ⟨_, exec_tick_of_wait sample now hm, ?_⟩
  simp [outputsOf, dout, busy, halted, stateBlinking, diagValid, diagDiff, acceptTick]

/-- Settles O12: outside mode WAIT each command with `rst = 0` is the edge without a command. -/
theorem tickOutsideWaitIsNop : Obligations.TickOutsideWaitIsNop :=
  fun _ _ _ hm => ⟨exec_eq_nopEdge rfl hm, exec_eq_nopEdge rfl hm⟩

/-- A failed read in mode WAIT halts under FATAL (44 R237, 60 R253). -/
theorem exec_tickSfault_of_fatal {s : State} (h : s.mode = .wait) (hp : s.params.sensorFaultPolicy = .fatal) :
    exec .tickSfault s = .next (haltedWith .sensorFault s.wire s) := by
  have hedge : tickSfaultEdge s = raiseFatal .sensorFault (clearStrobes s) := by
    simp only [tickSfaultEdge, if_pos h, hp]
  exact congrArg _ (hedge.trans (raiseFatal_of_not_halted (by simp [h])))

/-- A failed read in mode WAIT skips the tick under TOLERANT (44 R237, 60 R256). -/
theorem exec_tickSfault_of_tolerant {s : State} (h : s.mode = .wait) (hp : s.params.sensorFaultPolicy = .tolerant) :
    exec .tickSfault s = .next { s with tickDone := true, sensorWarn := true } := by
  simp only [exec, execTickSfault, tickSfaultEdge, if_pos h, hp]

/-- Settles O13: the policy decides whether the failed read halts the block or skips its tick. -/
theorem failedReadHaltsOrSkips : Obligations.FailedReadHaltsOrSkips :=
  fun _ hm => ⟨exec_tickSfault_of_fatal hm, exec_tickSfault_of_tolerant hm⟩

end Sys2Proof.Machine

/-! ### The fault pins outside their modes (60 R251, R252) -/

namespace Sys2Proof.Machine

/-- A tick that ends with the window open paints the colour of the phase (43 R199). -/
theorem ctrlUpdate_of_openAfter {s : State} {cur : Int} {now : Nat} (h : openAfter cur now s) :
    ctrlUpdate cur now s =
      { s with
        blink := .blinking
        blinkStart := startAfter cur now s
        fb := fbFill s.params s.fb (phaseColour s.params now) } :=
  (ctrlUpdate_cases cur now s).elim And.right fun hn => absurd h hn.1

/-- A tick that ends with no window open paints the buffer off (43 R200, R201). -/
theorem ctrlUpdate_of_not_openAfter {s : State} {cur : Int} {now : Nat} (h : ¬ openAfter cur now s) :
    ctrlUpdate cur now s =
      { s with
        blink := .idle
        blinkStart := startAfter cur now s
        fb := fbFill s.params s.fb s.params.colorOff } :=
  (ctrlUpdate_cases cur now s).elim (fun ho => absurd ho.1 h) And.right

/-- The controller looks at no pin (43 R202). -/
theorem ctrlUpdate_with_pins (cur : Int) (now : Nat) (s : State) (q : Pins) :
    ctrlUpdate cur now { s with pins := q } = { ctrlUpdate cur now s with pins := q } := by
  by_cases h : openAfter cur now s
  · rw [ctrlUpdate_of_openAfter h, ctrlUpdate_of_openAfter (s := { s with pins := q }) h]
    rfl
  · rw [ctrlUpdate_of_not_openAfter h, ctrlUpdate_of_not_openAfter (s := { s with pins := q }) h]
    rfl

/-- The accept edge looks at no pin (44 R236). -/
theorem acceptTick_with_pins (sample : Int) (now : Nat) (s : State) (q : Pins) :
    acceptTick sample now { s with pins := q } = { acceptTick sample now s with pins := q } := by
  unfold acceptTick
  rw [show clearStrobes { s with pins := q } = { clearStrobes s with pins := q } from rfl, ctrlUpdate_with_pins]

/-- A reset looks at no pin (70 R290). -/
theorem resetEdge_with_pins (s : State) (q : Pins) :
    resetEdge { s with pins := q } = { resetEdge s with pins := q } := by
  unfold resetEdge
  rw [recordTick_with_pins]
  rfl

section
variable {s : State} {q : Pins}
  (htx : s.mode = .tx → q.txFault = s.pins.txFault) (hinit : s.mode = .init → q.initFault = s.pins.initFault)
include htx hinit

theorem tickEdge_with_pins (sample : Int) (now : Nat) :
    tickEdge sample now { s with pins := q } = { tickEdge sample now s with pins := q } := by
  by_cases hm : s.mode = .wait
  · simp only [tickEdge, if_pos hm, acceptTick_with_pins]
  · simp only [tickEdge, if_neg hm, nopEdge_with_pins htx hinit]

theorem tickSfaultEdge_with_pins :
    tickSfaultEdge { s with pins := q } = { tickSfaultEdge s with pins := q } := by
  by_cases hm : s.mode = .wait
  · simp only [tickSfaultEdge, if_pos hm]
    split
    · exact raiseFatal_with_pins .sensorFault (clearStrobes s) q
    · rfl
  · simp only [tickSfaultEdge, if_neg hm, nopEdge_with_pins htx hinit]

end

/-- Every command completes, and looks at `tx_fault` in mode TX and at `init_fault` in mode INIT, and at no other pin
(60 R251). -/
theorem exec_command_with_pins {i : Instr} (hi : isCommand i = true) (s : State) :
    ∃ t : State, exec i s = .next t ∧
      ∀ q : Pins, (s.mode = .tx → q.txFault = s.pins.txFault) → (s.mode = .init → q.initFault = s.pins.initFault) →
        exec i { s with pins := q } = .next { t with pins := q } := by
  cases i with
  | reset => exact ⟨_, rfl, fun q _ _ => congrArg _ (resetEdge_with_pins s q)⟩
  | nop => exact ⟨_, rfl, fun _ htx hinit => congrArg _ (nopEdge_with_pins htx hinit)⟩
  | tick sample now => exact ⟨_, rfl, fun _ htx hinit => congrArg _ (tickEdge_with_pins htx hinit sample now)⟩
  | tickSfault => exact ⟨_, rfl, fun _ htx hinit => congrArg _ (tickSfaultEdge_with_pins htx hinit)⟩
  | _ => cases hi

/-- Settles O20: flipping a pin outside its mode keeps the level of the one pin the mode looks at. -/
theorem faultPinsAreIgnoredElsewhere : Obligations.FaultPinsAreIgnoredElsewhere := by
  intro s i b hi
  obtain ⟨t, ht, hpins⟩ := exec_command_with_pins hi s
  refine ⟨t, ht, fun hm => ?_, fun hm => ?_⟩
  · exact hpins _ (fun htx => absurd htx hm) fun _ => rfl
  · exact hpins _ (fun _ => rfl) fun hinit => absurd hinit hm

/-! ### Mode HALTED (60 R254, R258, R259) -/

theorem clearStrobes_of_clear {s : State} (hdone : s.tickDone = false) (hwarn : s.sensorWarn = false) :
    clearStrobes s = s := by
  cases s
  cases hdone
  cases hwarn
  rfl

/-- Settles O53: in HALTED a command without reset clears strobes the invariant has at 0 already, and the invariant
rests the sequencer and has a cause recorded. -/
theorem haltedBlockIsFrozen : Obligations.HaltedBlockIsFrozen := by
  rintro s i ⟨-, -, ⟨hrest, -⟩, hfault, hstrobes, -⟩ hm hi
  have hwait : s.mode ≠ .wait := by simp [hm]
  obtain ⟨hdone, hwarn⟩ := strobes_of_not_wait hstrobes hwait
  refine ⟨?_, dout_of_phase_ne_high ?_, ?_, decide_eq_true hm, fun hnone => hfault.1 hnone hm⟩
  · rw [exec_eq_nopEdge hi hwait, nopEdge_of_halted hm, clearStrobes_of_clear hdone hwarn]
  · simp [hrest (by simp [hm]), Seq.rest]
  · simp [busy, hm]

/-- From HALTED every effect but a reset clears the strobes at most, or writes the result of a value operation. -/
theorem Effect.of_halted {i : Instr} {s t : State} (h : Effect i s t) (hm : s.mode = .halted) (hi : i ≠ .reset) :
    t = clearStrobes s ∨ t = { s with result := t.result } := by
  have hwait (hw : s.mode = .wait) : False := by simp [hm] at hw
  cases h with
  | reset hr _ => exact absurd hr hi
  | edge _ ht => exact .inl (ht.trans (nopEdge_of_halted hm))
  | accept _ _ _ hw _ => exact (hwait hw).elim
  | sensorHalt _ hw _ _ => exact (hwait hw).elim
  | sensorSkip _ hw _ _ => exact (hwait hw).elim
  | ctrl _ _ _ hw _ => exact (hwait hw).elim
  | tickEnd _ hw _ => exact (hwait hw).elim
  | transmit _ htx _ _ => simp [hm] at htx
  | halt _ _ _ hh _ => exact .inr (by rw [hh hm])
  | paint _ hw _ _ => exact (hwait hw).elim
  | wire _ hw _ => exact (hwait hw).elim
  | value _ ht => exact .inr ht

/-- Settles O54: the inversion lemma of `exec` leaves an instruction in HALTED no more than cleared strobes or a
result. -/
theorem onlyResetLeavesHalted : Obligations.OnlyResetLeavesHalted := by
  intro i s t hm h hi
  rcases (effect_of_exec h).of_halted hm hi with ht | ht
  · rw [ht]
    exact ⟨rfl, nofun, nofun⟩
  · rw [ht]
    exact ⟨rfl, id, id⟩

/-- HALT with a cause is `raise Fatal(code)` (60 R254). -/
theorem exec_halt {code : FaultCode} (hc : code ≠ .none) (s : State) :
    exec (.halt code) s = .next (raiseFatal code s) := if_neg hc

/-- Settles O50: outside HALTED the fault that HALT raises takes effect. -/
theorem haltRaisesFatal : Obligations.HaltRaisesFatal :=
  fun s _ hc hm => (exec_halt hc s).trans (congrArg _ (raiseFatal_of_not_halted hm))

/-- Settles O51: in HALTED nothing further is raised, and the code NONE is turned away before any mode is looked at. -/
theorem haltNeverNestsAndNeedsACause : Obligations.HaltNeverNestsAndNeedsACause :=
  fun s _ => ⟨fun hc hm => (exec_halt hc s).trans (congrArg _ (raiseFatal_of_halted hm)), rfl⟩

end Sys2Proof.Machine

/-! ### The INIT edge (70 R292) -/

namespace Sys2Proof.Machine

/-- Settles O9: in INIT each command with `rst = 0` is the edge without a command, and a fault raised there takes
effect, as INIT is not HALTED. -/
theorem initEdgeDecidesStartup : Obligations.InitEdgeDecidesStartup := by
  intro s i hi hm
  have hhalted : (clearStrobes s).mode ≠ .halted := by simp [hm]
  rw [exec_eq_nopEdge hi (by simp [hm]), nopEdge_of_init hm, raiseFatal_of_not_halted hhalted]
  rfl

end Sys2Proof.Machine
